-- ==== Sys2Proof/Word.lean ====
section
/-! DEFINITION. The word types of the SQE: what the spec treats as bits (00_scope.md R8, R11). -/

namespace Sys2Proof

/-- `u64`: a key, an index, a seed, a result (R8, R11). -/
abbrev Word := BitVec 64

/-- `u32`: the 32-bit output word of U32 (R8). -/
abbrev Word32 := BitVec 32

/-- The request word `REQ = req.op ∥ req.a ∥ req.b` (30_encoding.md R50). -/
abbrev ReqWord := BitVec 131

/-- The response word `RSP = rsp.status ∥ rsp.data` (30_encoding.md R51). -/
abbrev RspWord := BitVec 67

end Sys2Proof
end

