-- ==== Sys2Proof/Config.lean ====
section
/-! DEFINITION. What the spec leaves to one instance of the hardware: the parameters of 00_scope.md R9, each a
field of `Config`, and the free values, which have no body. -/

namespace Sys2Proof

/-- Which reading of the fifth round of the u64 path is built (R9, 42_u64.md R101 and R102). -/
inductive U64Final where
  | doc
  | published
  deriving DecidableEq, Repr

/-- Which seed-scrambling function is built (R9, R74 (c)): the reference one of 40_keydomain.md R76, or any other total
function of the seed alone. -/
inductive ScrambleChoice where
  | reference
  | other (n : Nat)
  deriving DecidableEq, Repr

/-- Which adjustment function is built (R9, R74 (c)): the reference one of 40_keydomain.md R77, or any other total function
whose results are admissible. -/
inductive AdjustChoice where
  | reference
  | other (n : Nat)
  deriving DecidableEq, Repr

/-- The implementation parameters of R9. They have one value for the life of an instance; no operation writes them. -/
structure Config where
  /-- `POP_MIN`, least admissible count of set bits in a key. -/
  popMin : Nat
  /-- `POP_MAX`, greatest admissible count of set bits in a key. -/
  popMax : Nat
  /-- `SCRAMBLE`. -/
  scramble : ScrambleChoice
  /-- `DERIVE_GAMMA`, additive constant of the reference `SCRAMBLE`. -/
  deriveGamma : Word
  /-- `DERIVE_M1`, first multiplier of the reference `SCRAMBLE`. -/
  deriveM1 : Word
  /-- `DERIVE_M2`, second multiplier of the reference `SCRAMBLE`. -/
  deriveM2 : Word
  /-- `ADJUST`. -/
  adjust : AdjustChoice
  /-- `U64_FINAL`. -/
  u64Final : U64Final
  /-- `DEPTH`, capacity of the response queue. -/
  depth : Nat
  deriving DecidableEq, Repr

namespace Config

/-- The reference values of R9, the spec's own choice (92_eei_decisions.md D2 to D5, D8). -/
def reference : Config where
  popMin := 24
  popMax := 40
  scramble := .reference
  deriveGamma := 0x9E3779B97F4A7C15#64
  deriveM1 := 0xBF58476D1CE4E5B9#64
  deriveM2 := 0x94D049BB133111EB#64
  adjust := .reference
  u64Final := .doc
  depth := 2

/-- FREE VALUE: the `n`-th scrambling function that is not the reference one. Total and a function of the seed alone by its
type; nothing else is known of it (R74 (b), U2). DESIGN CHOICE, log entry 11. -/
opaque otherScramble : Nat → Word → Word

/-- FREE VALUE: the `n`-th candidate adjustment that is not the reference one; `Sys2Proof.Machine.adjust` uses its result
where that is admissible. DESIGN CHOICE, log entry 11. -/
opaque otherAdjust : Nat → Word → Word

/-- FREE VALUE: what `rsp_status` carries at the `n`-th edge if `rsp_valid = 0` there (R34, U3). Log entry 8. -/
opaque freeRspStatus : Nat → BitVec 3

/-- FREE VALUE: what `rsp_data` carries at the `n`-th edge if `rsp_valid = 0` there (R34, U3). Log entry 8. -/
opaque freeRspData : Nat → Word

end Config

end Sys2Proof
end

