-- ==== Sys2Proof/Syntax.lean ====
section
/-! DEFINITION. The commands of the SQE, one constructor per row of the opcode table (30_encoding.md R52), and the request
as the three ports carry it (R50). -/

namespace Sys2Proof

/-- A request: the values of `req_op`, `req_a`, `req_b`, taken together at one edge (R31, R50). -/
structure Request where
  op : BitVec 3
  a : Word
  b : Word
  deriving DecidableEq, Repr

/-- The command a request selects. Every field of the request is kept, the ignored operand too, so that a command stands
for exactly one request word. -/
inductive Instr where
  /-- op 0, `u32(key, index)` (R92). -/
  | u32 (key index : Word)
  /-- op 1, `u64(key, index)` (R103). -/
  | u64 (key index : Word)
  /-- op 2, `key(seed)`; `b` is ignored (R75). -/
  | key (seed b : Word)
  /-- op 3, `Key::checked(value)`; `b` is ignored (R72). -/
  | checked (value b : Word)
  /-- op 4, `Key::unchecked(value)`; `b` is ignored (R73). -/
  | unchecked (value b : Word)
  /-- op 5, reserved; `a` and `b` are ignored (R54). -/
  | rsvd5 (a b : Word)
  /-- op 6, reserved; `a` and `b` are ignored (R54). -/
  | rsvd6 (a b : Word)
  /-- op 7, reserved; `a` and `b` are ignored (R54). -/
  | rsvd7 (a b : Word)
  deriving DecidableEq, Repr

/-- The mnemonics of the opcode table (R52, R58). -/
inductive Mnemonic where
  | U32 | U64 | KEY | CHECKED | UNCHECKED | RSVD5 | RSVD6 | RSVD7
  deriving DecidableEq, Repr

namespace Instr

/-- The row of the opcode table a command belongs to (R52). -/
def mnemonic : Instr → Mnemonic
  | .u32 _ _ => .U32
  | .u64 _ _ => .U64
  | .key _ _ => .KEY
  | .checked _ _ => .CHECKED
  | .unchecked _ _ => .UNCHECKED
  | .rsvd5 _ _ => .RSVD5
  | .rsvd6 _ _ => .RSVD6
  | .rsvd7 _ _ => .RSVD7

end Instr

end Sys2Proof
end

