-- ==== Sys2Proof/WellFormed.lean ====
section
/-! DEFINITION. Which terms stand for something the hardware can have. A request has no ill-formed values (30_encoding.md
R52 to R54: `exec` is total on all 2^131 request words); an instance's parameters do (00_scope.md R9). -/

namespace Sys2Proof

namespace Config

/-- `1 ≤ POP_MIN` (R9). -/
def popMinPositive (c : Config) : Bool := decide (1 ≤ c.popMin)

/-- `POP_MIN ≤ POP_MAX` (R9). -/
def boundsOrdered (c : Config) : Bool := decide (c.popMin ≤ c.popMax)

/-- `POP_MAX ≤ 64` (R9). -/
def popMaxInRange (c : Config) : Bool := decide (c.popMax ≤ 64)

/-- `DERIVE_M1` is odd (R9). -/
def m1Odd (c : Config) : Bool := c.deriveM1.getLsbD 0

/-- `DERIVE_M2` is odd (R9). -/
def m2Odd (c : Config) : Bool := c.deriveM2.getLsbD 0

/-- `DEPTH ≥ 1` (R9). -/
def depthPositive (c : Config) : Bool := decide (1 ≤ c.depth)

/-- The constraints of R9's table, all of them. -/
def wf (c : Config) : Bool :=
  c.popMinPositive && c.boundsOrdered && c.popMaxInRange && c.m1Odd && c.m2Odd && c.depthPositive

end Config

namespace Instr

/-- Every command with every operand is legal: the index (R22), the key (41_u32.md R93), the seed (40_keydomain.md R75),
the value (R72, R73), and the operands a reserved opcode ignores (R54). -/
def wf : Instr → Bool
  | .u32 _ _ => true
  | .u64 _ _ => true
  | .key _ _ => true
  | .checked _ _ => true
  | .unchecked _ _ => true
  | .rsvd5 _ _ => true
  | .rsvd6 _ _ => true
  | .rsvd7 _ _ => true

end Instr

end Sys2Proof
end

