-- ==== Sys2Proof/Decode.lean ====
section
/-! DEFINITION. Request words to commands and back (30_encoding.md R50, R52, R54, R57). The three ports are the hardware's
own form of a request; the 131-bit word is a notation for them and has no byte order (20_memory.md R41). -/

namespace Sys2Proof

namespace Request

/-- The fields of a request word: `op` is bits 130:128, `a` bits 127:64, `b` bits 63:0 (R50). -/
def ofWord (w : ReqWord) : Request where
  op := w.extractLsb' 128 3
  a := w.extractLsb' 64 64
  b := w.extractLsb' 0 64

/-- `REQ = req.op ∥ req.a ∥ req.b` (R50). -/
def toWord (r : Request) : ReqWord := r.op ++ r.a ++ r.b

end Request

/-- The command that `req.op` selects, its bits read as the `op` column of R52 writes them. Total: every value of `op` has
a row (R52, R54). -/
def decodeRequest (r : Request) : Instr :=
  match r.op.getLsbD 2, r.op.getLsbD 1, r.op.getLsbD 0 with
  | false, false, false => .u32 r.a r.b
  | false, false, true  => .u64 r.a r.b
  | false, true,  false => .key r.a r.b
  | false, true,  true  => .checked r.a r.b
  | true,  false, false => .unchecked r.a r.b
  | true,  false, true  => .rsvd5 r.a r.b
  | true,  true,  false => .rsvd6 r.a r.b
  | true,  true,  true  => .rsvd7 r.a r.b

/-- Decode a whole request word. -/
def decode (w : ReqWord) : Instr := decodeRequest (Request.ofWord w)

/-- Why a number is no request word. -/
inductive DecodeReject where
  /-- It has a 1 above bit 130; "bit 131 does not exist" (R50). Raised by `decodeNat` only; safe, no port can carry it. -/
  | bitAbove130
  deriving DecidableEq, Repr

/-- Decode a number written as a request word, rejecting by name what is no request word (R50, R57). -/
def decodeNat (w : Nat) : Except DecodeReject Instr :=
  if w < 2 ^ 131 then .ok (decode (BitVec.ofNat 131 w)) else .error .bitAbove130

/-- The instruction whose bits are the low `nbits` bits of `w`, all others 0. The ports are parallel, so there is no byte
order to lay the word out in (R41). DESIGN CHOICE, log entry 14. -/
def decodeTableWord (nbits w : Nat) : Option Instr :=
  match decodeNat (w % 2 ^ nbits) with
  | .ok i => some i
  | .error _ => none

/-- The request that stands for a command, from the `op` column of R52. -/
def encodeRequest : Instr → Request
  | .u32 key index   => ⟨0b000#3, key, index⟩
  | .u64 key index   => ⟨0b001#3, key, index⟩
  | .key seed b      => ⟨0b010#3, seed, b⟩
  | .checked v b     => ⟨0b011#3, v, b⟩
  | .unchecked v b   => ⟨0b100#3, v, b⟩
  | .rsvd5 a b       => ⟨0b101#3, a, b⟩
  | .rsvd6 a b       => ⟨0b110#3, a, b⟩
  | .rsvd7 a b       => ⟨0b111#3, a, b⟩

/-- The request word of a command (R50, R52). -/
def encode (i : Instr) : ReqWord := (encodeRequest i).toWord

/-- A row of the opcode table: a request word `w` selects it when `w and mask = pattern` (R52; the table's `match` column
is `pattern` here). -/
structure OpcodeRow where
  mnemonic : Mnemonic
  pattern : ReqWord
  mask : ReqWord
  deriving DecidableEq, Repr

/-- `w and mask = pattern` (R52). -/
def OpcodeRow.selects (row : OpcodeRow) (w : ReqWord) : Bool := (w &&& row.mask) == row.pattern

/-- opcode_table.json's rows, its `match` and `mask` columns digit for digit. -/
def opcodeTable : List OpcodeRow :=
  [ ⟨.U32,       0x000000000000000000000000000000000#131, 0x700000000000000000000000000000000#131⟩,
    ⟨.U64,       0x100000000000000000000000000000000#131, 0x700000000000000000000000000000000#131⟩,
    ⟨.KEY,       0x200000000000000000000000000000000#131, 0x700000000000000000000000000000000#131⟩,
    ⟨.CHECKED,   0x300000000000000000000000000000000#131, 0x700000000000000000000000000000000#131⟩,
    ⟨.UNCHECKED, 0x400000000000000000000000000000000#131, 0x700000000000000000000000000000000#131⟩,
    ⟨.RSVD5,     0x500000000000000000000000000000000#131, 0x700000000000000000000000000000000#131⟩,
    ⟨.RSVD6,     0x600000000000000000000000000000000#131, 0x700000000000000000000000000000000#131⟩,
    ⟨.RSVD7,     0x700000000000000000000000000000000#131, 0x700000000000000000000000000000000#131⟩ ]

end Sys2Proof
end

