-- ==== Sys2Proof/Machine/State.lean ====
section
/-! DEFINITION. The state of the SQE (10_state.md R20 to R37), what stands outside it and drives its ports, and the reasons
a step can stop. -/

namespace Sys2Proof.Machine

/-- The five statuses a response can have (30_encoding.md R55; 93_implementation_defined.md U6). -/
inductive Status where
  | ok
  | invalidKeyEven
  | invalidKeyPopLow
  | invalidKeyPopHigh
  | illegalOp
  deriving DecidableEq, Repr

/-- Why a value is not admissible (40_keydomain.md R71). -/
inductive KeyFlaw where
  | even
  | popLow
  | popHigh
  deriving DecidableEq, Repr

/-- The errors a command can raise, all of them (60_exceptions.md R120 to R124). -/
inductive Error where
  | invalidKey (flaw : KeyFlaw)
  | illegalOp
  deriving DecidableEq, Repr

/-- A computed response: `rsp.status` and `rsp.data` (30_encoding.md R51). -/
structure Response where
  status : Status
  data : Word
  deriving DecidableEq, Repr

/-- What stands on the input ports at one rising edge of `clk` (10_state.md R29), and whether the engine's latency has run
out by that edge. -/
structure Edge where
  /-- `rst` (70_reset_and_hazards.md R140). -/
  rst : Bool
  /-- `req_valid`. -/
  reqValid : Bool
  /-- `req_op`, `req_a`, `req_b`; ignored while `req_valid = 0` (R34). -/
  req : Request
  /-- `rsp_ready`. -/
  rspReady : Bool
  /-- Not a port: by this edge the latency of the response at the head of `PEND` has elapsed, so `rsp_valid` is up. Its
  moment is left to the schedule (R33, R150). DESIGN CHOICE, log entry 5. -/
  latencyElapsed : Bool
  deriving DecidableEq, Repr

/-- An edge at which the requester offers nothing and takes nothing: the edge the machine meets when the schedule is empty.
DESIGN CHOICE, log entry 4. -/
def Edge.idle : Edge where
  rst := false
  reqValid := false
  req := ⟨0#3, 0#64, 0#64⟩
  rspReady := false
  latencyElapsed := true

/-- The machine. `pend` and `offered` are the hardware's state (10_state.md R33); `config` is the instance's configuration
and never changes (00_scope.md R9, log entry 1); the last three fields stand outside the hardware (log entries 2, 7, 8). -/
structure State where
  /-- The parameters of this instance. -/
  config : Config
  /-- `PEND`: the responses computed and not yet delivered, oldest first (R33). -/
  pend : List Response
  /-- The head of `PEND` has been on offer since an earlier edge: once `rsp_valid` is 1 it stays 1 until the deliver (R33).
  DEDUCED, log entry 6. -/
  offered : Bool
  /-- The port inputs of the edges to come, the next edge first. -/
  schedule : List Edge
  /-- The response words the requester has sampled at the deliver events, oldest first (R32). -/
  delivered : List RspWord
  /-- How many edges there have been: the index of the free values (R34). -/
  edges : Nat
  deriving DecidableEq, Repr

/-- What stops the machine: nothing does. An error is a status in a response (60_exceptions.md R126) and every command is
total (30_encoding.md R52), so this type has no constructor. -/
inductive Fault where
  deriving DecidableEq, Repr

/-- Why a command has no meaning in the model. -/
inductive Refusal where
  /-- An arm of `exec` that has no meaning yet, by the mnemonic of its row. Raised by `exec` alone, and by no arm of it
  now; safe, the machine stops. -/
  | notModelled (mnemonic : String)
  deriving DecidableEq, Repr

/-- What a step or a command answers. -/
abbrev Result := Host.Outcome State Fault Refusal

/-- The machine right after reset (10_state.md R36): `PEND` empty, `rsp_valid` 0, the reference parameters (R9). The fields
outside the hardware begin empty; DESIGN CHOICE, log entries 1, 2, 7 and 8. -/
def State.reset : State where
  config := Config.reference
  pend := []
  offered := false
  schedule := []
  delivered := []
  edges := 0

end Sys2Proof.Machine
end

