-- ==== Sys2Proof/Machine/Operands.lean ====
section
/-! DEFINITION. The arithmetic primitives on operands (00_scope.md R11, R12) and the one width conversion (30_encoding.md
R53). Operands are used exactly as presented: nothing here masks, scales or extends an input. -/

namespace Sys2Proof.Machine

/-- `add64(a, b) = (a + b) mod 2^64` (R12). -/
def add64 (a b : Word) : Word := a + b

/-- `mul64(a, b) = (a * b) mod 2^64` (R12). -/
def mul64 (a b : Word) : Word := a * b

/-- `sq64(a) = mul64(a, a)` (R12). -/
def sq64 (a : Word) : Word := mul64 a a

/-- `hi32(x) = x[63:32]` (R12). -/
def hi32 (x : Word) : Word32 := x.extractLsb' 32 32

/-- `x[31:0]` (R11). -/
def lo32 (x : Word) : Word32 := x.extractLsb' 0 32

/-- `swap32(x) = x[31:0] ∥ x[63:32]` (R12). -/
def swap32 (x : Word) : Word := lo32 x ++ hi32 x

/-- `shr(x, n)`: logical right shift, zeros enter at the top (R12). -/
def shr (x : Word) (n : Nat) : Word := x >>> n

/-- `popcount64(x)`: the number of `i` in 0..63 with `x[i] = 1` (R12). -/
def popcount64 (x : Word) : Nat := (List.range 64).countP fun i => x.getLsbD i

/-- `zext_64` of a 32-bit value (R12, R53). -/
def zext64 (v : Word32) : Word := v.setWidth 64

end Sys2Proof.Machine
end

