-- ==== Sys2Proof/Machine/Flags.lean ====
section
/-! DEFINITION. The SQE has no flags (10_state.md R26). The only status information is the 3-bit `rsp.status` of a response:
its codes, the status each error has, and the response word (30_encoding.md R51, R55). -/

namespace Sys2Proof.Machine

/-- The values of `rsp.status` (R55). -/
def Status.code : Status → BitVec 3
  | .ok => 0b000#3
  | .invalidKeyEven => 0b001#3
  | .invalidKeyPopLow => 0b010#3
  | .invalidKeyPopHigh => 0b011#3
  | .illegalOp => 0b100#3

/-- The status a 3-bit code stands for; 5, 6 and 7 are never produced and stand for none (R55, U6). -/
def statusOfCode (c : BitVec 3) : Option Status :=
  match c.getLsbD 2, c.getLsbD 1, c.getLsbD 0 with
  | false, false, false => some .ok
  | false, false, true  => some .invalidKeyEven
  | false, true,  false => some .invalidKeyPopLow
  | false, true,  true  => some .invalidKeyPopHigh
  | true,  false, false => some .illegalOp
  | true,  false, true  => none
  | true,  true,  false => none
  | true,  true,  true  => none

/-- `code(E)` (R55). -/
def errorStatus : Error → Status
  | .invalidKey .even => .invalidKeyEven
  | .invalidKey .popLow => .invalidKeyPopLow
  | .invalidKey .popHigh => .invalidKeyPopHigh
  | .illegalOp => .illegalOp

/-- "`rsp.status[1:0] ≠ 0` with `rsp.status[2] = 0` is exactly InvalidKey" (R55). -/
def isInvalidKeyCode (c : BitVec 3) : Bool := (c.getLsbD 1 || c.getLsbD 0) && !c.getLsbD 2

/-- `RSP = rsp.status ∥ rsp.data` (R51). -/
def Response.word (r : Response) : RspWord := r.status.code ++ r.data

/-- A response word read back, where its status code is one of R55's five. -/
def decodeResponse (w : RspWord) : Option Response :=
  (statusOfCode (w.extractLsb' 64 3)).map fun st => ⟨st, w.extractLsb' 0 64⟩

end Sys2Proof.Machine
end

