-- ==== Sys2Proof/Machine/Ops.lean ====
section
/-! DEFINITION. The named operations of the machine: responding and raising (00_scope.md R13, R14), the ports (10_state.md
R33, R34), and what one rising edge does around a command (R31, R32, 70_reset_and_hazards.md R140). -/

namespace Sys2Proof.Machine

/-- `length PEND < DEPTH`, judged on the queue as it stands (R33). -/
def State.hasRoom (s : State) : Bool := decide (s.pend.length < s.config.depth)

/-- Append a response at the tail of `PEND` (R31). -/
def State.push (s : State) (r : Response) : State := { s with pend := s.pend ++ [r] }

/-- `respond(s, d)`: the request's execution ends and its response goes to the tail of `PEND` (R13, R31). On a full queue
nothing is accepted and nothing changes (R31, R33). DEDUCED, log entry 9. -/
def respond (status : Status) (data : Word) (s : State) : Result :=
  if s.hasRoom then .next (s.push ⟨status, data⟩) else .next s

/-- `raise E`, which is `respond(code(E), 0)` (R14, 60_exceptions.md R126): what stands in for taking an exception. Nothing
is saved and nothing else changes, so there is no return from it (R127). -/
def raise (e : Error) (s : State) : Result := respond (errorStatus e) 0#64 s

/-- The inputs at the edge to come: the schedule's first entry, an idle edge when the schedule is empty. Log entry 4. -/
def State.edge (s : State) : Edge := s.schedule.headD Edge.idle

/-- `req_ready = 1` exactly when `rst = 0` and `length PEND < DEPTH` (R33). -/
def State.reqReady (s : State) : Bool := !s.edge.rst && s.hasRoom

/-- `rsp_valid`: only when `rst = 0` and `PEND` is not empty (R33); up since an earlier edge, or because the latency has
elapsed by this one (R150). -/
def State.rspValid (s : State) : Bool := !s.edge.rst && !s.pend.isEmpty && (s.offered || s.edge.latencyElapsed)

/-- The output ports (R29). -/
structure PortOutputs where
  reqReady : Bool
  rspValid : Bool
  rspStatus : BitVec 3
  rspData : Word
  deriving DecidableEq, Repr

/-- The outputs at the edge to come. While `rsp_valid = 1` the response ports carry the head of `PEND` (R32); while it is 0
they carry any value, a new one at each edge (R34, U3). -/
def State.outputs (s : State) : PortOutputs :=
  match s.pend, s.rspValid with
  | r :: _, true => ⟨s.reqReady, true, r.status.code, r.data⟩
  | _, _ => ⟨s.reqReady, false, Config.freeRspStatus s.edges, Config.freeRspData s.edges⟩

/-- The response word on the ports: `rsp_status ∥ rsp_data` (R51). -/
def PortOutputs.rspWord (p : PortOutputs) : RspWord := p.rspStatus ++ p.rspData

/-- An accept happens at the edge to come (R31). -/
def State.accepts (s : State) : Bool := s.edge.reqValid && s.reqReady

/-- A deliver happens at the edge to come (R32). -/
def State.delivers (s : State) : Bool := s.outputs.rspValid && s.edge.rspReady

/-- The request on the ports of the edge to come, as the command it selects; none while `req_valid = 0` (R31, R34). This is
the machine's fetch: it has no program counter (R25). -/
def State.fetch (s : State) : Option Instr :=
  if s.edge.reqValid then some (decodeRequest s.edge.req) else none

/-- Close the edge that began in `s` and whose command left `t`: the deliver judged on the ports as they stood in `s` takes
the head of the queue (R32), and the clock moves on. Because the queue of `t` is that of `s` with at most one response more
at its tail, an accept and a deliver at one edge give `tail(PEND) ++ [exec(req)]` (R32). Log entry 10. -/
def State.closeEdge (s t : State) : State :=
  { t with
    pend := if s.delivers then t.pend.tail else t.pend
    offered := s.outputs.rspValid && !s.edge.rspReady
    schedule := s.schedule.tail
    delivered := if s.delivers then t.delivered ++ [s.outputs.rspWord] else t.delivered
    edges := s.edges + 1 }

/-- Close the edge after a command's outcome; a command that stopped the machine stops it. -/
def State.closeOutcome (s : State) : Result → Result
  | .next t => .next (s.closeEdge t)
  | .fault f => .fault f
  | .refused r => .refused r

/-- An edge with `rst = 1`: nothing is accepted, nothing is delivered, `PEND` becomes empty (R140, R142). The parameters
are no state (R35), and what the requester has already taken is its own. Log entry 16. -/
def State.resetEdge (s : State) : State :=
  { s with
    pend := []
    offered := false
    schedule := s.schedule.tail
    edges := s.edges + 1 }

/-- An edge at which the requester offers `req` and takes nothing. -/
def offerEdge (req : Request) : Edge where
  rst := false
  reqValid := true
  req := req
  rspReady := false
  latencyElapsed := false

/-- Put an edge in front of the schedule. -/
def State.withEdge (s : State) (e : Edge) : State := { s with schedule := e :: s.schedule }

end Sys2Proof.Machine
end

