-- ==== Sys2Proof/Machine/KeyDomain.lean ====
section
/-! DEFINITION. KeyDomain (40_keydomain.md): the admissibility predicate, the derivation of a key from a seed, and the
commands CHECKED, UNCHECKED and KEY. -/

namespace Sys2Proof.Machine

/-- `ADMISSIBLE(v)`: odd, and its count of set bits within the bounds, both inclusive (R70). -/
def admissible (c : Config) (v : Word) : Bool :=
  v.getLsbD 0 && decide (c.popMin ≤ popcount64 v ∧ popcount64 v ≤ c.popMax)

/-- `CLASSIFY(v)`, the first line that applies (R71); `none` is its answer `admissible`. -/
def classify (c : Config) (v : Word) : Option KeyFlaw :=
  if v.getLsbD 0 = false then some .even
  else if popcount64 v < c.popMin then some .popLow
  else if popcount64 v > c.popMax then some .popHigh
  else none

/-- The reference `SCRAMBLE`, with its three constants from the configuration (R76). -/
def scrambleReference (c : Config) (s : Word) : Word :=
  let z := add64 s c.deriveGamma
  let z := mul64 (z ^^^ shr z 30) c.deriveM1
  let z := mul64 (z ^^^ shr z 27) c.deriveM2
  z ^^^ shr z 31

/-- `SCRAMBLE`, as the instance is built (R9, R74 (c)). -/
def scramble (c : Config) (s : Word) : Word :=
  match c.scramble with
  | .reference => scrambleReference c s
  | .other n => Config.otherScramble n s

/-- Set the lowest clear bit: `or(k, add64(k, 1))` (R77). -/
def setLowestClear (k : Word) : Word := k ||| add64 k 1#64

/-- The greatest `i` with `k[i] = 1` (R77), for `k ≠ 0`. -/
def highestSet (k : Word) : Nat := k.toNat.log2

/-- Clear the highest set bit: `and(k, not64(2^h))` (R77). -/
def clearHighestSet (k : Word) : Word := k &&& ~~~(BitVec.ofNat 64 (2 ^ highestSet k))

/-- The first loop of R77, at most `fuel` passes; 64 are enough (R78 (ii), log entry 12). -/
def fillSparse (c : Config) : (fuel : Nat) → Word → Word
  | 0, k => k
  | fuel + 1, k => if popcount64 k < c.popMin then fillSparse c fuel (setLowestClear k) else k

/-- The second loop of R77, at most `fuel` passes; 64 are enough (R78 (iii), log entry 12). -/
def thinDense (c : Config) : (fuel : Nat) → Word → Word
  | 0, k => k
  | fuel + 1, k => if popcount64 k > c.popMax then thinDense c fuel (clearHighestSet k) else k

/-- The reference `ADJUST` (R77). -/
def adjustReference (c : Config) (m : Word) : Word := thinDense c 64 (fillSparse c 64 (m ||| 1#64))

/-- `ADJUST`, as the instance is built: total, and its result admissible for every input (R9). Any such function is the
`other` one for some reading of `Config.otherAdjust`. Log entry 11. -/
def adjust (c : Config) (m : Word) : Word :=
  match c.adjust with
  | .reference => adjustReference c m
  | .other n => if admissible c (Config.otherAdjust n m) then Config.otherAdjust n m else adjustReference c m

/-- `DERIVE(s) = ADJUST(SCRAMBLE(s))` (R75). -/
def derive (c : Config) (s : Word) : Word := adjust c (scramble c s)

/-- CHECKED (R72). `b` is ignored (R53). -/
def execChecked (value _b : Word) (s : State) : Result :=
  match classify s.config value with
  | none => respond .ok value s
  | some flaw => raise (.invalidKey flaw) s

/-- UNCHECKED (R73): the value, never repaired. `b` is ignored (R53). -/
def execUnchecked (value _b : Word) (s : State) : Result := respond .ok value s

/-- KEY (R75). `b` is ignored (R53). -/
def execKey (seed _b : Word) (s : State) : Result := respond .ok (derive s.config seed) s

end Sys2Proof.Machine
end

