-- ==== Sys2Proof/Machine/Reserved.lean ====
section
/-! DEFINITION. The reserved opcodes 5 to 7: accepted like any other request, executed as `raise IllegalOp` whatever their
operands are (30_encoding.md R54, 60_exceptions.md R124). -/

namespace Sys2Proof.Machine

/-- RSVD5 (R54). -/
def execRsvd5 (_a _b : Word) (s : State) : Result := raise .illegalOp s

/-- RSVD6 (R54). -/
def execRsvd6 (_a _b : Word) (s : State) : Result := raise .illegalOp s

/-- RSVD7 (R54). -/
def execRsvd7 (_a _b : Word) (s : State) : Result := raise .illegalOp s

end Sys2Proof.Machine
end

