-- ==== Sys2Proof/Machine/RoundU32.lean ====
section
/-! DEFINITION. The set-up and the round shared by both round functions, and the command U32 (41_u32.md). -/

namespace Sys2Proof.Machine

/-- The two mixing constants of a draw (R90): `y = index * key`, which is also the accumulator's first value, and
`z = y + key`. -/
structure Mixing where
  y : Word
  z : Word
  deriving DecidableEq, Repr

/-- Set-up (R90). -/
def setUp (key index : Word) : Mixing :=
  let y := mul64 index key
  ⟨y, add64 y key⟩

/-- The mixing term of round `r`: `y` when `r` is odd, `z` when it is even (R91). -/
def mixingTerm (m : Mixing) (r : Nat) : Word := if r % 2 = 1 then m.y else m.z

/-- A half round: `SQADD(x, r) = add64(sq64(x), m(r))` (R91). -/
def sqAdd (m : Mixing) (x : Word) (r : Nat) : Word := add64 (sq64 x) (mixingTerm m r)

/-- A full round: `ROUND(x, r) = swap32(SQADD(x, r))` (R91). -/
def fullRound (m : Mixing) (x : Word) (r : Nat) : Word := swap32 (sqAdd m x r)

/-- The accumulator after rounds 1 to 3, the same for both paths (R92, R100). -/
def afterRound3 (m : Mixing) : Word := fullRound m (fullRound m (fullRound m m.y 1) 2) 3

/-- The u32 round function: three full rounds, a half round, the top 32 bits (R92). The key is not validated (R93). -/
def drawU32 (key index : Word) : Word32 :=
  let m := setUp key index
  hi32 (sqAdd m (afterRound3 m) 4)

/-- U32 (R92). -/
def execU32 (key index : Word) (s : State) : Result := respond .ok (zext64 (drawU32 key index)) s

end Sys2Proof.Machine
end

