-- ==== Sys2Proof/Machine/RoundU64.lean ====
section
/-! DEFINITION. The u64 round function and the command U64 (42_u64.md). -/

namespace Sys2Proof.Machine

/-- The accumulator after rounds 1 to 4, all full rounds (R100; 90_conflicts.md C1). -/
def afterRound4 (m : Mixing) : Word := fullRound m (afterRound3 m) 4

/-- `h` of round 5: the high 32 bits of the square of the saved accumulator plus the term (R101, R102; 90_conflicts.md
C2). -/
def finalHigh (m : Mixing) (saved : Word) : Word := zext64 (hi32 (sqAdd m saved 5))

/-- Round 5 with `U64_FINAL = DOC` (R101). -/
def finalDoc (m : Mixing) (saved : Word) : Word := sqAdd m (swap32 saved) 5 ^^^ finalHigh m saved

/-- Round 5 with `U64_FINAL = PUBLISHED` (R102). -/
def finalPublished (m : Mixing) (saved : Word) : Word := swap32 saved ^^^ finalHigh m saved

/-- The u64 round function (R103). The key is not validated (R93). -/
def drawU64 (final : U64Final) (key index : Word) : Word :=
  let m := setUp key index
  match final with
  | .doc => finalDoc m (afterRound4 m)
  | .published => finalPublished m (afterRound4 m)

/-- U64 (R103). -/
def execU64 (key index : Word) (s : State) : Result := respond .ok (drawU64 s.config.u64Final key index) s

end Sys2Proof.Machine
end

