-- ==== Sys2Proof/Machine/Dispatch.lean ====
section
/-! DEFINITION. `exec(req)`: the rule of the command that the request selects (10_state.md R31, 30_encoding.md R52). -/

namespace Sys2Proof.Machine

def exec (i : Instr) (s : State) : Host.Outcome State Fault Refusal :=
  match i with
  | .u32 key index => Sys2Proof.Machine.execU32 key index s
  | .u64 key index => Sys2Proof.Machine.execU64 key index s
  | .key seed b => Sys2Proof.Machine.execKey seed b s
  | .checked value b => Sys2Proof.Machine.execChecked value b s
  | .unchecked value b => Sys2Proof.Machine.execUnchecked value b s
  | .rsvd5 a b => Sys2Proof.Machine.execRsvd5 a b s
  | .rsvd6 a b => Sys2Proof.Machine.execRsvd6 a b s
  | .rsvd7 a b => Sys2Proof.Machine.execRsvd7 a b s

end Sys2Proof.Machine
end

