-- ==== Sys2Proof/Machine/Step.lean ====
section
/-! DEFINITION. One rising edge of `clk` (10_state.md R29, R31 to R33; 70_reset_and_hazards.md R140). -/

namespace Sys2Proof.Machine

/-- One edge: a reset edge empties the queue and blocks both channels (R140); any other edge runs the command offered on
the request ports, if one is, and closes the edge with its deliver (R31, R32). -/
def step (s : State) : Host.Outcome State Fault Refusal :=
  if s.edge.rst then .next s.resetEdge
  else
    match s.fetch with
    | some i => s.closeOutcome (exec i s)
    | none => s.closeOutcome (.next s)

/-- The requester offers, at the very next edge, the request whose word is the low `nbits` bits of `w`. The hardware has no
program to fetch from: this is how a command comes to run (R25). Log entry 3. -/
def State.withFetchWord (s : State) (nbits w : Nat) : State :=
  s.withEdge (offerEdge (Request.ofWord (BitVec.ofNat 131 (w % 2 ^ nbits))))

end Sys2Proof.Machine
end

