-- ==== Sys2Proof/Machine/Facade.lean ====
section
/-! DEFINITION. The public operations and how they map onto commands (43_facade.md R110 to R117): for each, the function,
the one request that computes it, and how its result is read from the response. They add no computation (R115). -/

namespace Sys2Proof.Machine

/-- `u32(key, index)` (R110). -/
def facadeU32 (key index : Word) : Word32 := drawU32 key index

/-- `u64(key, index)` (R111). -/
def facadeU64 (c : Config) (key index : Word) : Word := drawU64 c.u64Final key index

/-- `key(seed)` (R112). -/
def facadeKey (c : Config) (seed : Word) : Word := derive c seed

/-- `Key::checked(value)` (R113). -/
def facadeChecked (c : Config) (value : Word) : Except Error Word :=
  match classify c value with
  | none => .ok value
  | some flaw => .error (.invalidKey flaw)

/-- `Key::unchecked(value)` (R114). -/
def facadeUnchecked (value : Word) : Word := value

/-- The request of `u32` (R110). -/
def requestU32 (key index : Word) : Request := ⟨0b000#3, key, index⟩

/-- The request of `u64` (R111). -/
def requestU64 (key index : Word) : Request := ⟨0b001#3, key, index⟩

/-- The request of `key`; any value may stand in `b` (R112, R53). -/
def requestKey (seed b : Word) : Request := ⟨0b010#3, seed, b⟩

/-- The request of `Key::checked`; any value may stand in `b` (R113, R53). -/
def requestChecked (value b : Word) : Request := ⟨0b011#3, value, b⟩

/-- The request of `Key::unchecked`; any value may stand in `b` (R114, R53). -/
def requestUnchecked (value b : Word) : Request := ⟨0b100#3, value, b⟩

/-- "the result is `rsp.data[31:0]`" (R110). -/
def resultU32 (r : Response) : Word32 := lo32 r.data

/-- "the result is `rsp.data`" (R111, R112, R114). -/
def resultWord (r : Response) : Word := r.data

/-- "The `Result` is the response" (R113); an `ILLEGAL_OP` is read as the error it is. -/
def resultChecked (r : Response) : Except Error Word :=
  match r.status with
  | .ok => .ok r.data
  | .invalidKeyEven => .error (.invalidKey .even)
  | .invalidKeyPopLow => .error (.invalidKey .popLow)
  | .invalidKeyPopHigh => .error (.invalidKey .popHigh)
  | .illegalOp => .error .illegalOp

end Sys2Proof.Machine
end

