-- ==== Sys2Proof/Machine/Listing.lean ====
section
/-! DEFINITION. The listing syntax of transactions (30_encoding.md R58), one line per request and one per response, as
lists of characters: how a line is written and how it is read. No part of a step; it is how vectors are written down.
Log entry 18. -/

namespace Sys2Proof.Machine

/-- The sixteen digits as the spec's vectors write them. -/
def hexDigits : List Char := ['0', '1', '2', '3', '4', '5', '6', '7', '8', '9', 'a', 'b', 'c', 'd', 'e', 'f']

/-- The same digits in capitals, read as well. -/
def hexDigitsUpper : List Char := ['0', '1', '2', '3', '4', '5', '6', '7', '8', '9', 'A', 'B', 'C', 'D', 'E', 'F']

/-- The low `n` hex digits of a number, the most significant first: `hex16`, `hex17`, `hex33` (R50, R51, R58). -/
def hexChars : (n : Nat) → Nat → List Char
  | 0, _ => []
  | n + 1, v => hexDigits.getD (v / 16 ^ n % 16) '0' :: hexChars n v

/-- The value of a hex digit. -/
def hexValue (ch : Char) : Option Nat :=
  (hexDigits.findIdx? (· == ch)).or (hexDigitsUpper.findIdx? (· == ch))

/-- Read exactly `n` hex digits onto the value read so far; the rest of the line is handed back. -/
def readHex : (n : Nat) → (soFar : Nat) → List Char → Option (Nat × List Char)
  | 0, v, cs => some (v, cs)
  | _ + 1, _, [] => none
  | n + 1, v, ch :: cs =>
    match hexValue ch with
    | some d => readHex n (16 * v + d) cs
    | none => none

/-- Read the given characters; the rest of the line is handed back. -/
def expectChars : (wanted : List Char) → List Char → Option (List Char)
  | [], cs => some cs
  | _ :: _, [] => none
  | w :: ws, ch :: cs => if w = ch then expectChars ws cs else none

/-- `mnemonic` of R58. -/
def mnemonicChars : Mnemonic → List Char
  | .U32 => ['U', '3', '2']
  | .U64 => ['U', '6', '4']
  | .KEY => ['K', 'E', 'Y']
  | .CHECKED => ['C', 'H', 'E', 'C', 'K', 'E', 'D']
  | .UNCHECKED => ['U', 'N', 'C', 'H', 'E', 'C', 'K', 'E', 'D']
  | .RSVD5 => ['R', 'S', 'V', 'D', '5']
  | .RSVD6 => ['R', 'S', 'V', 'D', '6']
  | .RSVD7 => ['R', 'S', 'V', 'D', '7']

/-- The mnemonics of R58, all of them. -/
def allMnemonics : List Mnemonic := [.U32, .U64, .KEY, .CHECKED, .UNCHECKED, .RSVD5, .RSVD6, .RSVD7]

/-- `status` of R58. -/
def statusChars : Status → List Char
  | .ok => ['O', 'K']
  | .invalidKeyEven => ['I', 'N', 'V', 'A', 'L', 'I', 'D', '_', 'K', 'E', 'Y', '_', 'E', 'V', 'E', 'N']
  | .invalidKeyPopLow => ['I', 'N', 'V', 'A', 'L', 'I', 'D', '_', 'K', 'E', 'Y', '_', 'P', 'O', 'P', '_', 'L', 'O', 'W']
  | .invalidKeyPopHigh =>
    ['I', 'N', 'V', 'A', 'L', 'I', 'D', '_', 'K', 'E', 'Y', '_', 'P', 'O', 'P', '_', 'H', 'I', 'G', 'H']
  | .illegalOp => ['I', 'L', 'L', 'E', 'G', 'A', 'L', '_', 'O', 'P']

/-- The statuses of R58, all of them. -/
def allStatuses : List Status := [.ok, .invalidKeyEven, .invalidKeyPopLow, .invalidKeyPopHigh, .illegalOp]

/-- `operand ::= "0x" hex16` (R58). -/
def operandChars (v : Word) : List Char := ['0', 'x'] ++ hexChars 16 v.toNat

/-- Whether the second operand is written: always for `U32` and `U64`, and for a reserved opcode, as the spec's vectors
write it; for the others only to show a value other than 0 (R58). -/
def writesSecond (r : Request) (m : Mnemonic) : Bool :=
  match m with
  | .U32 => true
  | .U64 => true
  | .KEY => r.b != 0#64
  | .CHECKED => r.b != 0#64
  | .UNCHECKED => r.b != 0#64
  | .RSVD5 => true
  | .RSVD6 => true
  | .RSVD7 => true

/-- The text between a line's operands and the digits of its `REQ=` comment. -/
def reqCommentChars : List Char := [' ', ' ', ' ', ';', ' ', 'R', 'E', 'Q', '=']

/-- The text between a line's data and the digits of its `RSP=` comment. -/
def rspCommentChars : List Char := [' ', ' ', ' ', ';', ' ', 'R', 'S', 'P', '=']

/-- A request line, with its `REQ=` comment (R58). -/
def requestLine (i : Instr) : List Char :=
  ['>', ' '] ++ mnemonicChars i.mnemonic ++ [' '] ++ operandChars (encodeRequest i).a ++
    (if writesSecond (encodeRequest i) i.mnemonic then [',', ' '] ++ operandChars (encodeRequest i).b else []) ++
    reqCommentChars ++ hexChars 33 (encode i).toNat

/-- A response line, with its `RSP=` comment (R58). -/
def responseLine (r : Response) : List Char :=
  ['<', ' '] ++ statusChars r.status ++ [' '] ++ operandChars r.data ++ rspCommentChars ++ hexChars 17 r.word.toNat

/-- The command a mnemonic and its written operands stand for: `U32` and `U64` take two, the others one or two, and an
omitted second operand is 0 (R58). -/
def ofListing (m : Mnemonic) (a : Word) (b : Option Word) : Option Instr :=
  match m with
  | .U32 => b.map (.u32 a)
  | .U64 => b.map (.u64 a)
  | .KEY => some (.key a (b.getD 0#64))
  | .CHECKED => some (.checked a (b.getD 0#64))
  | .UNCHECKED => some (.unchecked a (b.getD 0#64))
  | .RSVD5 => some (.rsvd5 a (b.getD 0#64))
  | .RSVD6 => some (.rsvd6 a (b.getD 0#64))
  | .RSVD7 => some (.rsvd7 a (b.getD 0#64))

/-- Read an operand. -/
def readOperand (cs : List Char) : Option (Word × List Char) :=
  match expectChars ['0', 'x'] cs with
  | none => none
  | some rest =>
    match readHex 16 0 rest with
    | none => none
    | some (v, rest) => some (BitVec.ofNat 64 v, rest)

/-- A line may end here, or with a comment of `n` hex digits after the given text; what the digits say is not examined. -/
def endsLine (comment : List Char) (n : Nat) (cs : List Char) : Bool :=
  cs.isEmpty ||
    match expectChars comment cs with
    | none => false
    | some rest =>
      match readHex n 0 rest with
      | some (_, []) => true
      | _ => false

/-- Read the second operand, if one is written. -/
def readSecond (cs : List Char) : Option (Option Word × List Char) :=
  match expectChars [',', ' '] cs with
  | none => some (none, cs)
  | some rest =>
    match readOperand rest with
    | none => none
    | some (v, rest) => some (some v, rest)

/-- Read a request line (R58). -/
def readRequestLine (cs : List Char) : Option Instr :=
  match expectChars ['>', ' '] cs with
  | none => none
  | some rest =>
    match allMnemonics.find? fun m => mnemonicChars m == rest.takeWhile (· != ' ') with
    | none => none
    | some m =>
      match expectChars [' '] (rest.dropWhile (· != ' ')) with
      | none => none
      | some rest =>
        match readOperand rest with
        | none => none
        | some (a, rest) =>
          match readSecond rest with
          | none => none
          | some (b, rest) => if endsLine reqCommentChars 33 rest then ofListing m a b else none

/-- Read the data of a response line: 16 hex digits, with `0x` before them as R58's example and every vector has it, or
without as its grammar has it. -/
def readData (cs : List Char) : Option (Word × List Char) :=
  match readHex 16 0 ((expectChars ['0', 'x'] cs).getD cs) with
  | none => none
  | some (v, rest) => some (BitVec.ofNat 64 v, rest)

/-- Read a response line (R58). -/
def readResponseLine (cs : List Char) : Option Response :=
  match expectChars ['<', ' '] cs with
  | none => none
  | some rest =>
    match allStatuses.find? fun st => statusChars st == rest.takeWhile (· != ' ') with
    | none => none
    | some st =>
      match expectChars [' '] (rest.dropWhile (· != ' ')) with
      | none => none
      | some rest =>
        match readData rest with
        | none => none
        | some (d, rest) => if endsLine rspCommentChars 17 rest then some ⟨st, d⟩ else none

end Sys2Proof.Machine
end

