-- ==== Sys2Proof/Safety.lean ====
section
/-! DEFINITION. What counts as a safe state of the SQE, and the words in which claims about a run are stated. -/

namespace Sys2Proof.Machine

/-- "On every status other than `OK`, `rsp.data = 0`" (30_encoding.md R56). -/
def Response.Lawful (r : Response) : Prop := r.status ≠ .ok → r.data = 0#64

/-- The invariant of the machine. -/
structure State.Inv (s : State) : Prop where
  /-- The parameters meet the constraints of 00_scope.md R9. -/
  legal : s.config.wf = true
  /-- `length PEND ≤ DEPTH` (10_state.md R33). -/
  bounded : s.pend.length ≤ s.config.depth
  /-- Only a response that is in `PEND` is on offer (R33). -/
  offeredNonempty : s.offered = true → s.pend ≠ []
  /-- Every queued response obeys R56. -/
  pendLawful : ∀ r ∈ s.pend, r.Lawful
  /-- Every word the requester has taken is a response word with one of R55's five codes, obeying R56. -/
  deliveredLawful : ∀ w ∈ s.delivered, ∃ r : Response, w = r.word ∧ r.Lawful

/-- The response a request "would get alone" (20_memory.md R46 (b)): on an instance with the given parameters and an empty
queue, accepted as the only request. -/
def answer (c : Config) (i : Instr) : Response :=
  match exec i { State.reset with config := c } with
  | .next t => t.pend.headD ⟨.illegalOp, 0#64⟩
  | .fault _ => ⟨.illegalOp, 0#64⟩
  | .refused _ => ⟨.illegalOp, 0#64⟩

/-- The responses to the requests accepted at the edge to come: one or none. -/
def State.acceptedAnswers (s : State) : List Response :=
  if s.accepts then [answer s.config (decodeRequest s.edge.req)] else []

/-- The responses to the requests accepted at the next `n` edges, in acceptance order. -/
def State.answersWithin : Nat → State → List Response
  | 0, _ => []
  | n + 1, s =>
    s.acceptedAnswers ++
      match step s with
      | .next t => State.answersWithin n t
      | .fault _ => []
      | .refused _ => []

/-- No reset at the next `n` edges. -/
def State.noResetWithin (n : Nat) (s : State) : Prop := ∀ e ∈ s.schedule.take n, e.rst = false

/-- At how many of the next `n` edges the latency has elapsed and the requester is ready to take. -/
def State.chancesWithin (n : Nat) (s : State) : Nat :=
  (s.schedule.take n).countP fun e => e.latencyElapsed && e.rspReady

/-- At how many of the next `n` edges a request is offered. -/
def State.offersWithin (n : Nat) (s : State) : Nat := (s.schedule.take n).countP fun e => e.reqValid

end Sys2Proof.Machine
end

