-- ==== Sys2Proof/Certificates/Slice0/Obligations.lean ====
section
/-! DEFINITION. What is claimed of the SQE, for the provers. Results are stated in plain arithmetic on natural numbers
(the functions of `Sys2Proof.Claims`), not in the operations the model computes with. -/

namespace Sys2Proof.Claims

/-- `add64` on numbers below 2^64 (00_scope.md R12). -/
def nAdd (a b : Nat) : Nat := (a + b) % 2 ^ 64

/-- `mul64` on numbers below 2^64 (R12). -/
def nMul (a b : Nat) : Nat := a * b % 2 ^ 64

/-- `swap32` on a number below 2^64 (R12). -/
def nSwap (x : Nat) : Nat := x % 2 ^ 32 * 2 ^ 32 + x / 2 ^ 32

/-- Square, then add the term (41_u32.md R91). -/
def nSquareAdd (x term : Nat) : Nat := nAdd (nMul x x) term

/-- A full round (R91). -/
def nRound (x term : Nat) : Nat := nSwap (nSquareAdd x term)

/-- `y = index * key` (R90). -/
def nY (key index : Nat) : Nat := nMul index key

/-- `z = y + key` (R90). -/
def nZ (key index : Nat) : Nat := nAdd (nY key index) key

/-- `x3` (R92). -/
def nX3 (key index : Nat) : Nat :=
  nRound (nRound (nRound (nY key index) (nY key index)) (nZ key index)) (nY key index)

/-- The U32 word: `r4` without its low 32 bits (R92). -/
def nU32 (key index : Nat) : Nat := nSquareAdd (nX3 key index) (nZ key index) / 2 ^ 32

/-- `x4` (42_u64.md R100). -/
def nX4 (key index : Nat) : Nat := nRound (nX3 key index) (nZ key index)

/-- `h` (R101, R102). -/
def nHigh (key index : Nat) : Nat := nSquareAdd (nX4 key index) (nY key index) / 2 ^ 32

/-- The U64 word with `U64_FINAL = DOC` (R101). -/
def nU64Doc (key index : Nat) : Nat := nSquareAdd (nSwap (nX4 key index)) (nY key index) ^^^ nHigh key index

/-- The U64 word with `U64_FINAL = PUBLISHED` (R102). -/
def nU64Published (key index : Nat) : Nat := nSwap (nX4 key index) ^^^ nHigh key index

/-- The U64 word for either build (R103). -/
def nU64 (final : U64Final) (key index : Nat) : Nat :=
  match final with
  | .doc => nU64Doc key index
  | .published => nU64Published key index

/-- The count of set bits, as the sum of the 64 binary digits (R12). -/
def nPop (x : Nat) : Nat := ((List.range 64).map fun i => x / 2 ^ i % 2).sum

/-- `ADMISSIBLE` in numbers (40_keydomain.md R70). -/
def nAdmissible (c : Config) (x : Nat) : Prop := x % 2 = 1 ∧ c.popMin ≤ nPop x ∧ nPop x ≤ c.popMax

/-- The reference `SCRAMBLE` in numbers (R76). -/
def nScramble (gamma m1 m2 s : Nat) : Nat :=
  let z1 := nAdd s gamma
  let z2 := nMul (z1 ^^^ z1 / 2 ^ 30) m1
  let z3 := nMul (z2 ^^^ z2 / 2 ^ 27) m2
  z3 ^^^ z3 / 2 ^ 31

end Sys2Proof.Claims

open Sys2Proof Sys2Proof.Machine Sys2Proof.Claims

/-! ### Encoding -/

/-- The request words of 95_test_vectors.md section 2.1, one per opcode, decode to the commands they are listed for
(R50, R52). -/
def Obligations.SpecRequestWordsDecode : Prop :=
  decode 0x0548c9decbce652970000000000000001#131 = .u32 0x548c9decbce65297#64 1#64 ∧
  decode 0x1548c9decbce652970000000000000001#131 = .u64 0x548c9decbce65297#64 1#64 ∧
  decode 0x20000000000000001deadbeefdeadbeef#131 = .key 1#64 0xdeadbeefdeadbeef#64 ∧
  decode 0x3548c9decbce652970000000000000000#131 = .checked 0x548c9decbce65297#64 0#64 ∧
  decode 0x400000000000000040000000000000000#131 = .unchecked 4#64 0#64 ∧
  decode 0x5548c9decbce652970000000000000001#131 = .rsvd5 0x548c9decbce65297#64 1#64 ∧
  decode 0x600000000000000000000000000000000#131 = .rsvd6 0#64 0#64 ∧
  decode 0x7ffffffffffffffffffffffffffffffff#131 = .rsvd7 0xffffffffffffffff#64 0xffffffffffffffff#64

/-- Commands and request words stand for each other one to one: all 131 bits of a word are read, and none is invented
(R50, R52, R57). -/
def Obligations.EncodeAndDecodeAreInverse : Prop :=
  (∀ i : Instr, i.wf = true → decode (encode i) = i) ∧ (∀ w : ReqWord, encode (decode w) = w)

/-- Of the opcode table's rows, a request word selects, by `REQ and mask = match`, exactly the one whose mnemonic its
decoded command has (R52). -/
def Obligations.ExactlyTheDecodedRowIsSelected : Prop :=
  ∀ (w : ReqWord) (row : OpcodeRow), row ∈ opcodeTable →
    (w &&& row.mask = row.pattern ↔ row.mnemonic = (decode w).mnemonic)

/-- `REQ = op ∥ a ∥ b`: the fields of a request word as quotients and remainders of its number (R50). -/
def Obligations.RequestWordFields : Prop :=
  ∀ w : ReqWord,
    (Request.ofWord w).op.toNat = w.toNat / 2 ^ 128 ∧
    (Request.ofWord w).a.toNat = w.toNat / 2 ^ 64 % 2 ^ 64 ∧
    (Request.ofWord w).b.toNat = w.toNat % 2 ^ 64

/-- `RSP = status ∥ data` with the codes 0 to 4, and a response word reads back as its response (R51, R55). -/
def Obligations.ResponseWordLayout : Prop :=
  Status.ok.code = 0#3 ∧ Status.invalidKeyEven.code = 1#3 ∧ Status.invalidKeyPopLow.code = 2#3 ∧
  Status.invalidKeyPopHigh.code = 3#3 ∧ Status.illegalOp.code = 4#3 ∧
  (∀ r : Response, r.word.toNat = r.status.code.toNat * 2 ^ 64 + r.data.toNat ∧ decodeResponse r.word = some r) ∧
  (∀ w : RspWord, 5 * 2 ^ 64 ≤ w.toNat → decodeResponse w = none)

/-! ### The round functions -/

/-- U32 (R92): on a queue with room, opcode 0 is `U32`, and it appends the word of the four-round function, status OK, and
changes nothing else. For every key, admissible or not. -/
def Obligations.U32AppendsTheFourRoundWord : Prop :=
  ∀ (key index : Word) (s : State), s.pend.length < s.config.depth →
    decodeRequest ⟨0#3, key, index⟩ = .u32 key index ∧
    exec (.u32 key index) s =
      .next { s with pend := s.pend ++ [⟨.ok, BitVec.ofNat 64 (nU32 key.toNat index.toNat)⟩] }

/-- U64 (R103): on a queue with room, opcode 1 is `U64`, and it appends the word of the five-round function, with the fifth
round the instance is built with, status OK, and changes nothing else. For every key, admissible or not. -/
def Obligations.U64AppendsTheFiveRoundWord : Prop :=
  ∀ (key index : Word) (s : State), s.pend.length < s.config.depth →
    decodeRequest ⟨1#3, key, index⟩ = .u64 key index ∧
    exec (.u64 key index) s =
      .next { s with pend := s.pend ++ [⟨.ok, BitVec.ofNat 64 (nU64 s.config.u64Final key.toNat index.toNat)⟩] }

/-- With `U64_FINAL = PUBLISHED` the top 32 bits of the U64 word are the U32 word for the same operands (R102). -/
def Obligations.PublishedTopHalfIsTheU32Word : Prop :=
  ∀ (key index : Word) (s : State), s.pend.length < s.config.depth → s.config.u64Final = .published →
    ∃ (w : Word32) (d : Word),
      exec (.u32 key index) s = .next { s with pend := s.pend ++ [⟨.ok, w.setWidth 64⟩] } ∧
      exec (.u64 key index) s = .next { s with pend := s.pend ++ [⟨.ok, d⟩] } ∧
      d.toNat / 2 ^ 32 = w.toNat

/-- With `U64_FINAL = DOC` the U64 word is `xor(add64(sq64(r4), y), hi32(add64(sq64(swap32(r4)), y)))`, where `r4` is the
value whose top half is the U32 word (R101, 90_conflicts.md C1). That it is that value is an inference the spec marks as its
own. -/
def Obligations.DocWordComesFromTheU32Round4 : Prop :=
  ∀ (key index : Word) (s : State), s.pend.length < s.config.depth → s.config.u64Final = .doc →
    ∃ r4 : Word,
      exec (.u32 key index) s = .next { s with pend := s.pend ++ [⟨.ok, r4 >>> 32⟩] } ∧
      exec (.u64 key index) s = .next { s with pend := s.pend ++
        [⟨.ok, (r4 * r4 + index * key) ^^^ ((r4.rotateLeft 32 * r4.rotateLeft 32 + index * key) >>> 32)⟩] }

/-- The key 0 gives 0 for every index, from both round functions and both builds (R95, R105). Both tables are
inferences the spec marks as its own. -/
def Obligations.ZeroKeyDrawsZero : Prop :=
  ∀ (index : Word) (s : State), s.pend.length < s.config.depth →
    exec (.u32 0#64 index) s = .next { s with pend := s.pend ++ [⟨.ok, 0#64⟩] } ∧
    exec (.u64 0#64 index) s = .next { s with pend := s.pend ++ [⟨.ok, 0#64⟩] }

/-! ### KeyDomain -/

/-- CHECKED (R72): on a queue with room, opcode 3 is `CHECKED`; it appends the value itself with OK where the value is
admissible, else the first of the three InvalidKey statuses that applies, with data 0; it changes nothing else. -/
def Obligations.CheckedReportsItsVerdict : Prop :=
  ∀ (v b : Word) (s : State), s.pend.length < s.config.depth →
    decodeRequest ⟨3#3, v, b⟩ = .checked v b ∧
    (nAdmissible s.config v.toNat →
      exec (.checked v b) s = .next { s with pend := s.pend ++ [⟨.ok, v⟩] }) ∧
    (v.toNat % 2 = 0 →
      exec (.checked v b) s = .next { s with pend := s.pend ++ [⟨.invalidKeyEven, 0#64⟩] }) ∧
    (v.toNat % 2 = 1 → nPop v.toNat < s.config.popMin →
      exec (.checked v b) s = .next { s with pend := s.pend ++ [⟨.invalidKeyPopLow, 0#64⟩] }) ∧
    (v.toNat % 2 = 1 → s.config.popMin ≤ nPop v.toNat → s.config.popMax < nPop v.toNat →
      exec (.checked v b) s = .next { s with pend := s.pend ++ [⟨.invalidKeyPopHigh, 0#64⟩] })

/-- The admissibility predicate (R70): odd, and the count of set bits within the bounds, both inclusive; and CHECKED
succeeds exactly on the values that satisfy it. -/
def Obligations.CheckedSucceedsExactlyOnAdmissible : Prop :=
  (∀ (c : Config) (v : Word), admissible c v = true ↔ nAdmissible c v.toNat) ∧
  (∀ (v b : Word) (s : State), s.pend.length < s.config.depth →
    ((∃ d, exec (.checked v b) s = .next { s with pend := s.pend ++ [⟨.ok, d⟩] }) ↔ nAdmissible s.config v.toNat))

/-- UNCHECKED (R73): opcode 4 is `UNCHECKED`; it appends the value unchanged with OK, for every value, and changes nothing
else. -/
def Obligations.UncheckedReturnsTheValue : Prop :=
  ∀ (v b : Word) (s : State), s.pend.length < s.config.depth →
    decodeRequest ⟨4#3, v, b⟩ = .unchecked v b ∧
    exec (.unchecked v b) s = .next { s with pend := s.pend ++ [⟨.ok, v⟩] }

/-- KEY (R75): opcode 2 is `KEY`; on any instance with legal parameters, whatever its `SCRAMBLE` and `ADJUST`, it appends
`ADJUST(SCRAMBLE(seed))` with OK for every seed and changes nothing else; the key is admissible (R74 (a)). The last clause,
that CHECKED returns the key with OK, is an inference the spec marks as its own. That builds with another `SCRAMBLE` or
`ADJUST` are covered as they are is the model's choice (log entry 11). -/
def Obligations.KeyAppendsAnAdmissibleKey : Prop :=
  ∀ (seed b : Word) (s : State), s.config.wf = true → s.pend.length < s.config.depth →
    decodeRequest ⟨2#3, seed, b⟩ = .key seed b ∧
    exec (.key seed b) s =
      .next { s with pend := s.pend ++ [⟨.ok, adjust s.config (scramble s.config seed)⟩] } ∧
    nAdmissible s.config (adjust s.config (scramble s.config seed)).toNat ∧
    exec (.checked (adjust s.config (scramble s.config seed)) b) s =
      .next { s with pend := s.pend ++ [⟨.ok, adjust s.config (scramble s.config seed)⟩] }

/-- The reference `SCRAMBLE` is R76's sequence of add, xor-shift and multiply, with the constants of the configuration,
whose reference values are R9's. -/
def Obligations.ReferenceScrambleArithmetic : Prop :=
  (∀ (c : Config) (s : Word), c.scramble = .reference →
    (scramble c s).toNat = nScramble c.deriveGamma.toNat c.deriveM1.toNat c.deriveM2.toNat s.toNat) ∧
  Config.reference.deriveGamma.toNat = 0x9E3779B97F4A7C15 ∧
  Config.reference.deriveM1.toNat = 0xBF58476D1CE4E5B9 ∧
  Config.reference.deriveM2.toNat = 0x94D049BB133111EB

/-- The reference `SCRAMBLE` is a bijection of u64, for any odd multipliers (R76, an inference the spec marks as its
own). -/
def Obligations.ReferenceScrambleIsABijection : Prop :=
  ∀ c : Config, c.wf = true → c.scramble = .reference → Function.Bijective (scramble c)

/-- The reference `ADJUST` (R77, R78), for any legal bounds, with `k0 = or(m, 1)`: a `k0` in range is returned; a sparse one
gains its lowest clear bits up to exactly `POP_MIN`; a dense one loses its highest set bits down to exactly `POP_MAX`.
R78 is an inference the spec marks as its own. -/
def Obligations.ReferenceAdjustNudgesTheCount : Prop :=
  ∀ (c : Config) (m : Word), c.wf = true → c.adjust = .reference →
    (c.popMin ≤ nPop (m ||| 1#64).toNat → nPop (m ||| 1#64).toNat ≤ c.popMax → adjust c m = m ||| 1#64) ∧
    (nPop (m ||| 1#64).toNat < c.popMin →
      nPop (adjust c m).toNat = c.popMin ∧
      (∀ i, (m ||| 1#64).getLsbD i = true → (adjust c m).getLsbD i = true) ∧
      (∀ i j, i < j → (adjust c m).getLsbD j = true → (m ||| 1#64).getLsbD j = false →
        (adjust c m).getLsbD i = true)) ∧
    (c.popMax < nPop (m ||| 1#64).toNat →
      nPop (adjust c m).toNat = c.popMax ∧
      (∀ i, (adjust c m).getLsbD i = true → (m ||| 1#64).getLsbD i = true) ∧
      (∀ i j, j < i → (m ||| 1#64).getLsbD j = true → (adjust c m).getLsbD j = false →
        (adjust c m).getLsbD i = false))

/-- The field `b` of KEY, CHECKED and UNCHECKED, and both operands of a reserved opcode, are ignored (R53, R54). -/
def Obligations.IgnoredOperandsDoNotMatter : Prop :=
  ∀ (v a a' b b' : Word) (s : State),
    exec (.key v b) s = exec (.key v b') s ∧
    exec (.checked v b) s = exec (.checked v b') s ∧
    exec (.unchecked v b) s = exec (.unchecked v b') s ∧
    exec (.rsvd5 a b) s = exec (.rsvd5 a' b') s ∧
    exec (.rsvd6 a b) s = exec (.rsvd6 a' b') s ∧
    exec (.rsvd7 a b) s = exec (.rsvd7 a' b') s

/-! ### Errors -/

/-- IllegalOp (R124): opcodes 5, 6 and 7 are the reserved commands, and each appends status ILLEGAL_OP with data 0, whatever
its operands are, and changes nothing else. -/
def Obligations.ReservedOpcodesRespondIllegalOp : Prop :=
  ∀ (a b : Word) (s : State), s.pend.length < s.config.depth →
    decodeRequest ⟨5#3, a, b⟩ = .rsvd5 a b ∧ decodeRequest ⟨6#3, a, b⟩ = .rsvd6 a b ∧
    decodeRequest ⟨7#3, a, b⟩ = .rsvd7 a b ∧
    exec (.rsvd5 a b) s = .next { s with pend := s.pend ++ [⟨.illegalOp, 0#64⟩] } ∧
    exec (.rsvd6 a b) s = .next { s with pend := s.pend ++ [⟨.illegalOp, 0#64⟩] } ∧
    exec (.rsvd7 a b) s = .next { s with pend := s.pend ++ [⟨.illegalOp, 0#64⟩] }

/-- Which commands can answer which status (R55, R120): ILLEGAL_OP exactly the reserved opcodes, an InvalidKey status only
CHECKED, and U32, U64, KEY and UNCHECKED always OK. -/
def Obligations.EachErrorHasItsOwnCommands : Prop :=
  ∀ (c : Config) (i : Instr), c.wf = true →
    ((answer c i).status = .illegalOp ↔ i.mnemonic = .RSVD5 ∨ i.mnemonic = .RSVD6 ∨ i.mnemonic = .RSVD7) ∧
    ((answer c i).status = .invalidKeyEven ∨ (answer c i).status = .invalidKeyPopLow ∨
      (answer c i).status = .invalidKeyPopHigh → i.mnemonic = .CHECKED) ∧
    (i.mnemonic = .U32 ∨ i.mnemonic = .U64 ∨ i.mnemonic = .KEY ∨ i.mnemonic = .UNCHECKED →
      (answer c i).status = .ok)

/-- On every status other than OK the data is 0 (R56): of every response a command appends. -/
def Obligations.ErrorResponsesCarryZero : Prop :=
  ∀ (i : Instr) (s : State) (r : Response),
    exec i s = .next { s with pend := s.pend ++ [r] } → r.status ≠ .ok → r.data = 0#64

/-! ### What a command reads and leaves -/

/-- The response to a request is a function of the request's three fields and of the parameters, and of nothing else (R20):
it is the one the request would get alone, whatever the queue, the schedule and the history are. -/
def Obligations.ResponseIsTheOneItWouldGetAlone : Prop :=
  ∀ (op : BitVec 3) (a b : Word) (s : State), s.config.wf = true → s.pend.length < s.config.depth →
    exec (decodeRequest ⟨op, a, b⟩) s =
      .next { s with pend := s.pend ++ [answer s.config (decodeRequest ⟨op, a, b⟩)] }

/-- What executing any command leaves unchanged (R43): everything but the queue, which gains at most one response at its
tail and keeps all it had. The clauses on the schedule, the taken record and the edge count are about the model's own fields
(log entries 2, 7, 8), the one on the offer about a deduced one (log entry 6). -/
def Obligations.CommandsTouchOnlyTheTailOfTheQueue : Prop :=
  ∀ (i : Instr) (s t : State), exec i s = .next t →
    t.config = s.config ∧ t.offered = s.offered ∧ t.schedule = s.schedule ∧ t.delivered = s.delivered ∧
    t.edges = s.edges ∧ ∃ new : List Response, new.length ≤ 1 ∧ t.pend = s.pend ++ new

/-- On a full queue nothing is accepted: every command leaves the state as it is (R31, R33; R148 is an inference the
spec marks as its own). Log entry 9. -/
def Obligations.FullQueueAcceptsNothing : Prop :=
  ∀ (i : Instr) (s : State), s.config.depth ≤ s.pend.length → exec i s = .next s

/-! ### The Facade and the listing -/

/-- Each public operation is computed by one request, with its result read from the response (R110 to R114). -/
def Obligations.FacadeOperationsAreCommands : Prop :=
  ∀ (c : Config) (x y : Word), c.wf = true →
    ((answer c (decodeRequest (requestU32 x y))).status = .ok ∧
      resultU32 (answer c (decodeRequest (requestU32 x y))) = facadeU32 x y) ∧
    ((answer c (decodeRequest (requestU64 x y))).status = .ok ∧
      resultWord (answer c (decodeRequest (requestU64 x y))) = facadeU64 c x y) ∧
    ((answer c (decodeRequest (requestKey x y))).status = .ok ∧
      resultWord (answer c (decodeRequest (requestKey x y))) = facadeKey c x) ∧
    resultChecked (answer c (decodeRequest (requestChecked x y))) = facadeChecked c x ∧
    ((answer c (decodeRequest (requestUnchecked x y))).status = .ok ∧
      resultWord (answer c (decodeRequest (requestUnchecked x y))) = facadeUnchecked x)

/-- Deriving a key and drawing with it in a later request, on any instance with the same parameters, gives the one-step
composition `u32(key(seed), index)` (R116, an inference the spec marks as its own). -/
def Obligations.DeriveThenDrawComposes : Prop :=
  ∀ (seed index b : Word) (s s' : State), s.config.wf = true → s'.config = s.config →
    s.pend.length < s.config.depth → s'.pend.length < s'.config.depth →
    ∃ r r' : Response,
      exec (.key seed b) s = .next { s with pend := s.pend ++ [r] } ∧
      exec (.u32 r.data index) s' = .next { s' with pend := s'.pend ++ [r'] } ∧
      r'.data.toNat = nU32 (facadeKey s.config seed).toNat index.toNat

/-- A request line and a response line read back as what they were written for (R58). What a reader does with lines that
were not written so is the model's own (log entry 18). -/
def Obligations.ListingLinesReadBack : Prop :=
  (∀ i : Instr, readRequestLine (requestLine i) = some i) ∧
  (∀ r : Response, readResponseLine (responseLine r) = some r)

/-! ### Ports -/

/-- `req_ready = 1` exactly when `rst = 0` and `length PEND < DEPTH`, judged on the queue before the edge; whether the
requester takes a response at that edge makes no difference (R33). -/
def Obligations.ReqReadyIsRoomWithoutReset : Prop :=
  ∀ s : State,
    (s.outputs.reqReady = true ↔ s.edge.rst = false ∧ s.pend.length < s.config.depth) ∧
    ∀ (e : Edge) (ready : Bool),
      (s.withEdge { e with rspReady := ready }).outputs.reqReady = (s.withEdge e).outputs.reqReady

/-- `rsp_valid = 1` only when `rst = 0` and `PEND` is not empty; then the ports carry the head of `PEND`, and the status is
one of 0 to 4 (R32, R33, R55). -/
def Obligations.ValidResponseIsTheHeadOfTheQueue : Prop :=
  ∀ s : State, s.outputs.rspValid = true →
    s.edge.rst = false ∧
    (∃ r rest, s.pend = r :: rest ∧ s.outputs.rspStatus = r.status.code ∧ s.outputs.rspData = r.data) ∧
    s.outputs.rspStatus.toNat ≤ 4

/-- Once `rsp_valid` is 1 it stays 1, with the same status and data, until the deliver or a reset (R32, R33). -/
def Obligations.OfferStaysUntilDelivered : Prop :=
  ∀ s t : State, s.outputs.rspValid = true → s.edge.rspReady = false → step s = .next t → t.edge.rst = false →
    t.outputs.rspValid = true ∧ t.outputs.rspStatus = s.outputs.rspStatus ∧ t.outputs.rspData = s.outputs.rspData

/-- While `req_valid = 0` the request ports are ignored (R34). -/
def Obligations.UnofferedRequestPortsAreIgnored : Prop :=
  ∀ (s : State) (e : Edge) (req : Request), e.reqValid = false →
    step (s.withEdge { e with req := req }) = step (s.withEdge e)

/-! ### One edge -/

/-- At an edge without reset, step runs the command decoded from the request ports and closes the edge around it; a request
word offered at the next edge runs the command it decodes to. How a word is offered in the second part is the model's choice
(log entries 3 and 14). -/
def Obligations.StepRunsTheOfferedCommand : Prop :=
  (∀ (s : State) (i : Instr), s.edge.rst = false → s.edge.reqValid = true → decodeRequest s.edge.req = i →
    step s = s.closeOutcome (exec i s)) ∧
  (∀ (s : State) (i : Instr), i.wf = true →
    step (s.withFetchWord 131 (encode i).toNat) =
      (s.withFetchWord 131 (encode i).toNat).closeOutcome (exec i (s.withFetchWord 131 (encode i).toNat)))

/-- No step stops the machine: every command is total, errors are responses, and a full queue only waits (R52, R126,
R148). That `exec` is total, and R148, are inferences the spec marks as its own. -/
def Obligations.StepNeverStops : Prop := ∀ s : State, ∃ t : State, step s = .next t

/-- The queue after one edge (R31, R32, R33, R140): empty after a reset edge; else what it was, less its head if the head
was on offer and the requester ready, and with the response to the request at its tail if one was offered and the queue,
as it stood before the edge, had room. -/
def Obligations.QueueAfterOneEdge : Prop :=
  ∀ s t : State, s.config.wf = true → step s = .next t →
    t.pend =
      if s.edge.rst = true then []
      else
        (if s.outputs.rspValid = true ∧ s.edge.rspReady = true then s.pend.tail else s.pend) ++
        (if s.edge.reqValid = true ∧ s.pend.length < s.config.depth
          then [answer s.config (decodeRequest s.edge.req)] else [])

/-- What the requester has taken after one edge: the head's response is taken exactly at a deliver (R32); the parameters do
not change (R9). That what is taken is recorded in `delivered` is the model's choice (log entry 7), and so is the clause that
the schedule moves on by one edge (log entry 2): no rule of the spec states either. -/
def Obligations.DeliveredAfterOneEdge : Prop :=
  ∀ s t : State, step s = .next t →
    t.config = s.config ∧ t.schedule = s.schedule.tail ∧
    ((s.outputs.rspValid = true ∧ s.edge.rspReady = true →
        ∃ r rest, s.pend = r :: rest ∧ t.delivered = s.delivered ++ [r.word]) ∧
     (¬ (s.outputs.rspValid = true ∧ s.edge.rspReady = true) → t.delivered = s.delivered))

/-- A full queue refuses a request even at an edge where its head is delivered (R33). -/
def Obligations.FullQueueRefusesWhileDelivering : Prop :=
  ∀ s : State, s.edge.rst = false → s.edge.reqValid = true → s.config.depth ≤ s.pend.length →
    s.outputs.rspValid = true → s.edge.rspReady = true →
    ∃ t : State, step s = .next t ∧ t.pend = s.pend.tail

/-- Latency is at least one edge (R150): from an empty queue nothing is offered or delivered, even at the edge that accepts
a request. Deliveries are read off the model's own record (log entry 7). -/
def Obligations.NothingIsOfferedAtItsAcceptingEdge : Prop :=
  ∀ s t : State, s.pend = [] → step s = .next t → s.outputs.rspValid = false ∧ t.delivered = s.delivered

/-! ### Reset -/

/-- A reset edge (R140, R36): both handshakes are blocked, whatever the inputs are; the queue becomes empty; nothing is
delivered; one such edge is enough, so a second leaves the queue empty. Deliveries are read off the model's own record (log
entries 7 and 16), and `offered` is how the model holds `rsp_valid` (log entry 6). -/
def Obligations.ResetEdgeEmptiesTheQueue : Prop :=
  ∀ s : State, s.edge.rst = true →
    s.outputs.reqReady = false ∧ s.outputs.rspValid = false ∧
    ∃ t : State, step s = .next t ∧ t.pend = [] ∧ t.delivered = s.delivered ∧ t.offered = false ∧
      (t.edge.rst = true → ∃ u : State, step t = .next u ∧ u.pend = [] ∧ u.delivered = s.delivered)

/-- After a reset edge, at the first edge without reset, the engine is ready and offers nothing (R36). -/
def Obligations.AfterResetTheEngineIsReady : Prop :=
  ∀ s t : State, s.config.wf = true → s.edge.rst = true → step s = .next t → t.edge.rst = false →
    t.outputs.reqReady = true ∧ t.outputs.rspValid = false

/-- Reset has no effect on any later result (R37): after a reset every command gets the response it would have got before
it, or on any other instance with the same parameters. The sentence is an inference the spec marks as its own, from R20 and
R36. -/
def Obligations.ResetDoesNotChangeResponses : Prop :=
  ∀ (s t : State) (i : Instr), s.config.wf = true → s.pend.length < s.config.depth → s.edge.rst = true →
    step s = .next t →
    ∃ r : Response,
      exec i s = .next { s with pend := s.pend ++ [r] } ∧ exec i t = .next { t with pend := t.pend ++ [r] } ∧
      ∀ u : State, u.config = s.config → u.pend.length < u.config.depth →
        exec i u = .next { u with pend := u.pend ++ [r] }

/-- The machine right after reset: an empty queue, ready and offering nothing at its first edge without reset (R36). That
`State.reset` is an instance with bounds 24 and 40, `DOC` and depth 2 is the model's choice (log entry 1, unsafe for claims
about the real library): no rule of the spec says which parameters an instance has after reset, only that reset does not
change them. That the schedule, the requester's record and the edge count begin empty is the model's choice too (log entries
2, 7, 8) and is not claimed here. -/
def Obligations.ResetStateIsTheSpecs : Prop :=
  State.reset.pend = [] ∧ State.reset.config.popMin = 24 ∧ State.reset.config.popMax = 40 ∧
  State.reset.config.u64Final = .doc ∧ State.reset.config.depth = 2 ∧
  ∀ e : Edge, e.rst = false →
    (State.reset.withEdge e).outputs.reqReady = true ∧ (State.reset.withEdge e).outputs.rspValid = false

/-! ### Runs -/

/-- The invariant holds right after reset. -/
def Obligations.ResetStateMeetsTheInvariant : Prop := State.reset.Inv

/-- Every step keeps the invariant: legal parameters, a queue within its depth, an offer only of a queued response, data 0
on every error queued or delivered. -/
def Obligations.EveryStepKeepsTheInvariant : Prop :=
  ∀ s t : State, s.Inv → step s = .next t → t.Inv

/-- The parameters have one value for the life of an instance (R9): no run changes them. -/
def Obligations.ParametersNeverChange : Prop :=
  ∀ (n : Nat) (s t : State), Host.Core.run Sys2Proof.core n s = .next t → t.config = s.config

/-- Responses leave in the order their requests were accepted, each the response its request would get alone, none lost and
none invented (R46 (a), (c), R147 (c)): over any number of edges without reset, from any state with legal parameters, what
has been delivered, followed by what is queued, is what it was at the start followed by the answers to the requests
accepted since. The record of deliveries and the schedule are the model's own fields (log entries 2 and 7). -/
def Obligations.DeliveryInAcceptanceOrder : Prop :=
  ∀ (n : Nat) (s t : State), s.config.wf = true → s.noResetWithin n →
    Host.Core.run Sys2Proof.core n s = .next t →
    t.delivered ++ t.pend.map Response.word =
      s.delivered ++ s.pend.map Response.word ++ (s.answersWithin n).map Response.word

/-- Progress (R149): over any number of edges without reset, each edge at which the latency has elapsed and the requester
is ready delivers a response, as long as any of those queued at the start is left. That the latency is a bit of the schedule,
and deliveries are read off a record, is the model's choice (log entries 2, 5, 7). -/
def Obligations.EveryChanceDeliversAQueuedResponse : Prop :=
  ∀ (n : Nat) (s t : State), s.noResetWithin n → Host.Core.run Sys2Proof.core n s = .next t →
    s.delivered.length + min (s.chancesWithin n) s.pend.length ≤ t.delivered.length

/-- Latency is finite (R149, R150): without reset, a queued response has been delivered, or is on offer, by the end of the
schedule. That the machine's idle edges beyond the schedule let the latency elapse is the model's choice (log entry 4); so
are the schedule, its latency bits and the record of deliveries (log entries 2, 5, 7). -/
def Obligations.EveryOfferComesByTheEndOfTheSchedule : Prop :=
  ∀ s t : State, s.pend ≠ [] → s.noResetWithin s.schedule.length →
    Host.Core.run Sys2Proof.core s.schedule.length s = .next t →
    s.delivered.length < t.delivered.length ∨ t.outputs.rspValid = true

/-- Back-pressure (R148, an inference the spec marks as its own): while the requester takes nothing and there is no reset, the queue grows by one for each request
offered until it is full and then accepts nothing more; nothing is delivered. The record of deliveries and the schedule are
the model's own fields (log entries 2 and 7). -/
def Obligations.BackPressureStopsAtDepth : Prop :=
  ∀ (n : Nat) (s t : State), s.pend.length ≤ s.config.depth → s.noResetWithin n →
    (∀ e ∈ s.schedule.take n, e.rspReady = false) → Host.Core.run Sys2Proof.core n s = .next t →
    t.pend.length = min s.config.depth (s.pend.length + s.offersWithin n) ∧ t.delivered = s.delivered
end

