-- ==== Sys2Proof/Laws/Decode.lean ====
section
/-! SUPPORT. What each opcode decodes to, once (30_encoding.md R52), so that no proof unfolds the decoder. -/

namespace Sys2Proof

variable (a b : Word)

@[simp] theorem decodeRequest_op0 : decodeRequest ⟨0#3, a, b⟩ = .u32 a b := by simp [decodeRequest]
@[simp] theorem decodeRequest_op1 : decodeRequest ⟨1#3, a, b⟩ = .u64 a b := by simp [decodeRequest]
@[simp] theorem decodeRequest_op2 : decodeRequest ⟨2#3, a, b⟩ = .key a b := by simp [decodeRequest]
@[simp] theorem decodeRequest_op3 : decodeRequest ⟨3#3, a, b⟩ = .checked a b := by simp [decodeRequest]
@[simp] theorem decodeRequest_op4 : decodeRequest ⟨4#3, a, b⟩ = .unchecked a b := by simp [decodeRequest]
@[simp] theorem decodeRequest_op5 : decodeRequest ⟨5#3, a, b⟩ = .rsvd5 a b := by simp [decodeRequest]
@[simp] theorem decodeRequest_op6 : decodeRequest ⟨6#3, a, b⟩ = .rsvd6 a b := by simp [decodeRequest]
@[simp] theorem decodeRequest_op7 : decodeRequest ⟨7#3, a, b⟩ = .rsvd7 a b := by simp [decodeRequest]

/-- A request decodes to the command whose request it is. -/
@[simp] theorem decodeRequest_encodeRequest (i : Instr) : decodeRequest (encodeRequest i) = i := by
  cases i <;> simp [encodeRequest]

end Sys2Proof
end

