-- ==== Sys2Proof/Laws/State.lean ====
section
/-! SUPPORT. One lemma per field per update of the state, each true by unfolding, so that no later proof unfolds a record
update. -/

namespace Sys2Proof.Machine

section push
variable (s : State) (r : Response)

@[simp] theorem State.push_config : (s.push r).config = s.config := rfl
@[simp] theorem State.push_pend : (s.push r).pend = s.pend ++ [r] := rfl
@[simp] theorem State.push_offered : (s.push r).offered = s.offered := rfl
@[simp] theorem State.push_schedule : (s.push r).schedule = s.schedule := rfl
@[simp] theorem State.push_delivered : (s.push r).delivered = s.delivered := rfl
@[simp] theorem State.push_edges : (s.push r).edges = s.edges := rfl
@[simp] theorem State.push_edge : (s.push r).edge = s.edge := rfl

end push

section closeEdge
variable (s t : State)

@[simp] theorem State.closeEdge_config : (s.closeEdge t).config = t.config := rfl
@[simp] theorem State.closeEdge_pend :
    (s.closeEdge t).pend = if s.delivers then t.pend.tail else t.pend := rfl
@[simp] theorem State.closeEdge_offered :
    (s.closeEdge t).offered = (s.outputs.rspValid && !s.edge.rspReady) := rfl
@[simp] theorem State.closeEdge_schedule : (s.closeEdge t).schedule = s.schedule.tail := rfl
@[simp] theorem State.closeEdge_delivered :
    (s.closeEdge t).delivered = if s.delivers then t.delivered ++ [s.outputs.rspWord] else t.delivered := rfl
@[simp] theorem State.closeEdge_edges : (s.closeEdge t).edges = s.edges + 1 := rfl

end closeEdge

section resetEdge
variable (s : State)

@[simp] theorem State.resetEdge_config : s.resetEdge.config = s.config := rfl
@[simp] theorem State.resetEdge_pend : s.resetEdge.pend = [] := rfl
@[simp] theorem State.resetEdge_offered : s.resetEdge.offered = false := rfl
@[simp] theorem State.resetEdge_schedule : s.resetEdge.schedule = s.schedule.tail := rfl
@[simp] theorem State.resetEdge_delivered : s.resetEdge.delivered = s.delivered := rfl
@[simp] theorem State.resetEdge_edges : s.resetEdge.edges = s.edges + 1 := rfl

end resetEdge

section withEdge
variable (s : State) (e : Edge)

@[simp] theorem State.withEdge_config : (s.withEdge e).config = s.config := rfl
@[simp] theorem State.withEdge_pend : (s.withEdge e).pend = s.pend := rfl
@[simp] theorem State.withEdge_offered : (s.withEdge e).offered = s.offered := rfl
@[simp] theorem State.withEdge_schedule : (s.withEdge e).schedule = e :: s.schedule := rfl
@[simp] theorem State.withEdge_delivered : (s.withEdge e).delivered = s.delivered := rfl
@[simp] theorem State.withEdge_edges : (s.withEdge e).edges = s.edges := rfl
@[simp] theorem State.withEdge_edge : (s.withEdge e).edge = e := rfl
@[simp] theorem State.withEdge_hasRoom : (s.withEdge e).hasRoom = s.hasRoom := rfl

end withEdge

section offerEdge
variable (req : Request)

@[simp] theorem offerEdge_rst : (offerEdge req).rst = false := rfl
@[simp] theorem offerEdge_reqValid : (offerEdge req).reqValid = true := rfl
@[simp] theorem offerEdge_req : (offerEdge req).req = req := rfl
@[simp] theorem offerEdge_rspReady : (offerEdge req).rspReady = false := rfl
@[simp] theorem offerEdge_latencyElapsed : (offerEdge req).latencyElapsed = false := rfl

end offerEdge

section idle

@[simp] theorem Edge.idle_rst : Edge.idle.rst = false := rfl
@[simp] theorem Edge.idle_reqValid : Edge.idle.reqValid = false := rfl
@[simp] theorem Edge.idle_rspReady : Edge.idle.rspReady = false := rfl
@[simp] theorem Edge.idle_latencyElapsed : Edge.idle.latencyElapsed = true := rfl

end idle

end Sys2Proof.Machine
end

