-- ==== Sys2Proof/Laws/Ops.lean ====
section
/-! SUPPORT. What each shared operation can do, said once: responding, raising, the ports, and a deliver. -/

namespace Sys2Proof.Machine

theorem State.hasRoom_iff (s : State) : s.hasRoom = true ↔ s.pend.length < s.config.depth := by
  simp [State.hasRoom]

theorem respond_of_room {s : State} (h : s.hasRoom = true) (st : Status) (d : Word) :
    respond st d s = .next (s.push ⟨st, d⟩) := by
  simp [respond, h]

theorem respond_of_full {s : State} (h : s.hasRoom = false) (st : Status) (d : Word) : respond st d s = .next s := by
  simp [respond, h]

/-- All that responding can do: it always answers a next state, with the response at the tail of the queue or, on a full
queue, unchanged. -/
theorem respond_cases (st : Status) (d : Word) (s : State) :
    (s.hasRoom = true ∧ respond st d s = .next (s.push ⟨st, d⟩)) ∨ (s.hasRoom = false ∧ respond st d s = .next s) := by
  cases h : s.hasRoom
  · exact .inr ⟨rfl, respond_of_full h st d⟩
  · exact .inl ⟨rfl, respond_of_room h st d⟩

theorem raise_eq_respond (e : Error) (s : State) : raise e s = respond (errorStatus e) 0#64 s := rfl

theorem errorStatus_ne_ok (e : Error) : errorStatus e ≠ .ok := by
  rcases e with ⟨_ | _ | _⟩ | _ <;> simp [errorStatus]

/-- The edge to come is the schedule's first entry where there is one. -/
theorem State.edge_of_cons {s : State} {e : Edge} {es : List Edge} (h : s.schedule = e :: es) : s.edge = e := by
  simp [State.edge, h]

/-- An empty schedule gives an idle edge. -/
theorem State.edge_of_nil {s : State} (h : s.schedule = []) : s.edge = Edge.idle := by
  simp [State.edge, h]

theorem State.rspValid_iff (s : State) :
    s.rspValid = true ↔
      s.edge.rst = false ∧ s.pend ≠ [] ∧ (s.offered = true ∨ s.edge.latencyElapsed = true) := by
  simp [State.rspValid, and_assoc]

theorem State.outputs_reqReady (s : State) : s.outputs.reqReady = s.reqReady := by
  unfold State.outputs
  split <;> rfl

theorem State.outputs_rspValid (s : State) : s.outputs.rspValid = s.rspValid := by
  unfold State.outputs
  split
  · simp_all
  · cases h : s.rspValid
    · rfl
    · cases hp : s.pend with
      | nil => simp [State.rspValid, hp] at h
      | cons r rs => simp_all

/-- While `rsp_valid = 1` the ports carry the head of the queue. -/
theorem State.rspWord_of_valid {s : State} (h : s.rspValid = true) :
    ∃ r rs, s.pend = r :: rs ∧ s.outputs.rspStatus = r.status.code ∧ s.outputs.rspData = r.data ∧
      s.outputs.rspWord = r.word := by
  cases hp : s.pend with
  | nil => simp [State.rspValid, hp] at h
  | cons r rs =>
    refine ⟨r, rs, rfl, ?_, ?_, ?_⟩ <;> simp [State.outputs, PortOutputs.rspWord, Response.word, hp, h]

theorem State.delivers_iff (s : State) : s.delivers = true ↔ s.rspValid = true ∧ s.edge.rspReady = true := by
  simp [State.delivers, State.outputs_rspValid]

theorem State.fetch_of_valid {s : State} (h : s.edge.reqValid = true) : s.fetch = some (decodeRequest s.edge.req) := by
  simp [State.fetch, h]

theorem State.fetch_of_invalid {s : State} (h : s.edge.reqValid = false) : s.fetch = none := by
  simp [State.fetch, h]

@[simp] theorem State.closeOutcome_next (s t : State) : s.closeOutcome (.next t) = .next (s.closeEdge t) := rfl

end Sys2Proof.Machine
end

