-- ==== Sys2Proof/Laws/Exec.lean ====
section
/-! SUPPORT. What executing a command can do, said once, and what one edge can do, said once. -/

namespace Sys2Proof.Machine

/-- A failed CHECKED raises the flaw it was classified with, and a sound one responds with the value. -/
theorem execChecked_eq_respond (v b : Word) (s : State) :
    ∃ st d, execChecked v b s = respond st d s ∧ (st ≠ .ok → d = 0#64) := by
  unfold execChecked
  split
  · exact ⟨.ok, v, rfl, fun h => absurd rfl h⟩
  · exact ⟨_, 0#64, rfl, fun _ => rfl⟩

/-- Every command ends in exactly one `respond`, and one that is not `OK` carries 0 (R13, R56). -/
theorem exec_eq_respond (i : Instr) (s : State) :
    ∃ st d, exec i s = respond st d s ∧ (st ≠ .ok → d = 0#64) := by
  cases i with
  | u32 k x => exact ⟨.ok, _, rfl, fun h => absurd rfl h⟩
  | u64 k x => exact ⟨.ok, _, rfl, fun h => absurd rfl h⟩
  | key m b => exact ⟨.ok, _, rfl, fun h => absurd rfl h⟩
  | checked v b => exact execChecked_eq_respond v b s
  | unchecked v b => exact ⟨.ok, v, rfl, fun h => absurd rfl h⟩
  | rsvd5 a b => exact ⟨.illegalOp, 0#64, rfl, fun _ => rfl⟩
  | rsvd6 a b => exact ⟨.illegalOp, 0#64, rfl, fun _ => rfl⟩
  | rsvd7 a b => exact ⟨.illegalOp, 0#64, rfl, fun _ => rfl⟩

/-- All that executing a command can do. -/
theorem exec_cases (i : Instr) (s : State) :
    (s.hasRoom = true ∧ ∃ st d, (st ≠ .ok → d = 0#64) ∧ exec i s = .next (s.push ⟨st, d⟩)) ∨
      (s.hasRoom = false ∧ exec i s = .next s) := by
  obtain ⟨st, d, he, hz⟩ := exec_eq_respond i s
  rcases respond_cases st d s with ⟨hr, h⟩ | ⟨hr, h⟩
  · exact .inl ⟨hr, st, d, hz, he.trans h⟩
  · exact .inr ⟨hr, he.trans h⟩

theorem step_of_rst {s : State} (h : s.edge.rst = true) : step s = .next s.resetEdge := by
  simp [step, h]

theorem step_of_offer {s : State} (hr : s.edge.rst = false) (hv : s.edge.reqValid = true) :
    step s = s.closeOutcome (exec (decodeRequest s.edge.req) s) := by
  simp [step, hr, State.fetch_of_valid hv]

theorem step_of_no_offer {s : State} (hr : s.edge.rst = false) (hv : s.edge.reqValid = false) :
    step s = .next (s.closeEdge s) := by
  simp [step, hr, State.fetch_of_invalid hv]

/-- All that one edge can do: a reset; or the close of an edge at which a request was accepted, or none was. -/
theorem step_cases (s : State) :
    (s.edge.rst = true ∧ step s = .next s.resetEdge) ∨
    (s.edge.rst = false ∧ s.accepts = true ∧
      ∃ st d, (st ≠ .ok → d = 0#64) ∧ exec (decodeRequest s.edge.req) s = .next (s.push ⟨st, d⟩) ∧
        step s = .next (s.closeEdge (s.push ⟨st, d⟩))) ∨
    (s.edge.rst = false ∧ s.accepts = false ∧ step s = .next (s.closeEdge s)) := by
  cases hr : s.edge.rst with
  | true => exact .inl ⟨rfl, step_of_rst hr⟩
  | false =>
    right
    cases hv : s.edge.reqValid with
    | false => exact .inr ⟨rfl, by simp [State.accepts, hv], step_of_no_offer hr hv⟩
    | true =>
      rcases exec_cases (decodeRequest s.edge.req) s with ⟨hroom, st, d, hz, he⟩ | ⟨hroom, he⟩
      · refine .inl ⟨rfl, by simp [State.accepts, State.reqReady, hv, hr, hroom], st, d, hz, he, ?_⟩
        simp [step_of_offer hr hv, he]
      · refine .inr ⟨rfl, by simp [State.accepts, State.reqReady, hroom], ?_⟩
        simp [step_of_offer hr hv, he]

end Sys2Proof.Machine
end

