-- ==== Sys2Proof/Laws/Operands.lean ====
section
/-! SUPPORT. The value of each arithmetic primitive as a natural number (00_scope.md R12), and the small facts about the
admissibility predicate and the rounds. -/

namespace Sys2Proof.Machine

@[simp] theorem add64_toNat (a b : Word) : (add64 a b).toNat = (a.toNat + b.toNat) % 2 ^ 64 := by
  simp [add64]

@[simp] theorem mul64_toNat (a b : Word) : (mul64 a b).toNat = a.toNat * b.toNat % 2 ^ 64 := by
  simp [mul64]

@[simp] theorem sq64_toNat (a : Word) : (sq64 a).toNat = a.toNat * a.toNat % 2 ^ 64 := mul64_toNat a a

@[simp] theorem hi32_toNat (x : Word) : (hi32 x).toNat = x.toNat / 2 ^ 32 := by
  have := x.isLt
  simp only [hi32, BitVec.extractLsb'_toNat, Nat.shiftRight_eq_div_pow]
  omega

@[simp] theorem lo32_toNat (x : Word) : (lo32 x).toNat = x.toNat % 2 ^ 32 := by
  simp [lo32]

@[simp] theorem swap32_toNat (x : Word) : (swap32 x).toNat = x.toNat % 2 ^ 32 * 2 ^ 32 + x.toNat / 2 ^ 32 := by
  have hlt : (hi32 x).toNat < 2 ^ 32 := (hi32 x).isLt
  unfold swap32
  rw [BitVec.toNat_append, Nat.shiftLeft_eq, Nat.mul_comm, ← Nat.two_pow_add_eq_or_of_lt hlt, lo32_toNat, hi32_toNat]
  ring

@[simp] theorem shr_toNat (x : Word) (n : Nat) : (shr x n).toNat = x.toNat / 2 ^ n := by
  simp [shr, Nat.shiftRight_eq_div_pow]

@[simp] theorem zext64_toNat (v : Word32) : (zext64 v).toNat = v.toNat := by
  have := v.isLt
  simp only [zext64, BitVec.toNat_setWidth]
  omega

/-- `swap32(swap32(x)) = x` (R12). -/
@[simp] theorem swap32_swap32 (x : Word) : swap32 (swap32 x) = x := by
  have := x.isLt
  apply BitVec.eq_of_toNat_eq
  simp only [swap32_toNat]
  omega

theorem popcount64_le (x : Word) : popcount64 x ≤ 64 := by
  have h := List.countP_le_length (p := fun i => x.getLsbD i) (l := List.range 64)
  simpa [popcount64] using h

theorem admissible_iff (c : Config) (v : Word) :
    admissible c v = true ↔ v.getLsbD 0 = true ∧ c.popMin ≤ popcount64 v ∧ popcount64 v ≤ c.popMax := by
  simp [admissible]

theorem classify_of_even {c : Config} {v : Word} (h : v.getLsbD 0 = false) : classify c v = some .even := by
  simp only [classify, h, if_true]

theorem classify_of_low {c : Config} {v : Word} (h : v.getLsbD 0 = true) (hl : popcount64 v < c.popMin) :
    classify c v = some .popLow := by
  simp only [classify, h, hl, if_true, if_false, Bool.true_eq_false]

theorem classify_of_high {c : Config} {v : Word} (h : v.getLsbD 0 = true) (hl : c.popMin ≤ popcount64 v)
    (hh : c.popMax < popcount64 v) : classify c v = some .popHigh := by
  have hl' : ¬ popcount64 v < c.popMin := by omega
  simp only [classify, h, hl', hh, if_true, if_false, Bool.true_eq_false]

theorem classify_of_admissible {c : Config} {v : Word} (h : admissible c v = true) : classify c v = none := by
  obtain ⟨ho, hl, hh⟩ := (admissible_iff c v).1 h
  have hl' : ¬ popcount64 v < c.popMin := by omega
  have hh' : ¬ c.popMax < popcount64 v := by omega
  simp only [classify, ho, hl', hh', if_false, Bool.true_eq_false]

/-- Round 4 of the u64 path is the swap of the value U32 takes its output from (R100). -/
theorem swap32_afterRound4 (m : Mixing) : swap32 (afterRound4 m) = sqAdd m (afterRound3 m) 4 := by
  simp [afterRound4, fullRound]

@[simp] theorem mixingTerm_odd (m : Mixing) {r : Nat} (h : r % 2 = 1) : mixingTerm m r = m.y := by
  simp [mixingTerm, h]

@[simp] theorem mixingTerm_even (m : Mixing) {r : Nat} (h : r % 2 = 0) : mixingTerm m r = m.z := by
  simp [mixingTerm, h]

end Sys2Proof.Machine
end

