-- ==== Sys2Proof/Laws/PerInstr.lean ====
section
/-! SUPPORT. For every constructor of `Instr`: its request word selects the row of the opcode table that bears its mnemonic
(30_encoding.md R52). -/

namespace Sys2Proof.Laws.Row

/-- Some row of the table bears the command's mnemonic and is selected by the command's word. -/
def Statement (i : Instr) : Prop := ∃ row ∈ opcodeTable, row.mnemonic = i.mnemonic ∧ row.selects (encode i) = true

/-- The table's mask keeps the opcode and clears both operands. -/
theorem toWord_and_mask (r : Request) :
    r.toWord &&& 0x700000000000000000000000000000000#131 = (⟨r.op, 0#64, 0#64⟩ : Request).toWord := by
  have hm : 0x700000000000000000000000000000000#131 = (0b111#3 ++ 0#64 ++ 0#64 : BitVec 131) := by decide
  have hop : r.op &&& 0b111#3 = r.op := by
    have : (0b111#3) = BitVec.allOnes 3 := by decide
    rw [this, BitVec.and_allOnes]
  rw [hm]
  unfold Request.toWord
  rw [BitVec.and_append, BitVec.and_append, hop, BitVec.and_zero, BitVec.and_zero]

/-- A row of the table's mask is selected by a request whose opcode with both operands 0 is the row's pattern. -/
theorem selects_of_op {m : Mnemonic} {p : ReqWord} {r : Request} (op : BitVec 3) (hop : r.op = op)
    (h : (⟨op, 0#64, 0#64⟩ : Request).toWord = p) :
    OpcodeRow.selects ⟨m, p, 0x700000000000000000000000000000000#131⟩ r.toWord = true := by
  simp only [OpcodeRow.selects, beq_iff_eq]
  rw [toWord_and_mask, hop, h]

theorem u32 (key index : Word) : Statement (.u32 key index) :=
  ⟨_, .head _, rfl, selects_of_op 0#3 rfl (by decide)⟩

theorem u64 (key index : Word) : Statement (.u64 key index) :=
  ⟨_, .tail _ (.head _), rfl, selects_of_op 1#3 rfl (by decide)⟩

theorem key (seed b : Word) : Statement (.key seed b) :=
  ⟨_, .tail _ (.tail _ (.head _)), rfl, selects_of_op 2#3 rfl (by decide)⟩

theorem checked (value b : Word) : Statement (.checked value b) :=
  ⟨_, .tail _ (.tail _ (.tail _ (.head _))), rfl, selects_of_op 3#3 rfl (by decide)⟩

theorem unchecked (value b : Word) : Statement (.unchecked value b) :=
  ⟨_, .tail _ (.tail _ (.tail _ (.tail _ (.head _)))), rfl, selects_of_op 4#3 rfl (by decide)⟩

theorem rsvd5 (a b : Word) : Statement (.rsvd5 a b) :=
  ⟨_, .tail _ (.tail _ (.tail _ (.tail _ (.tail _ (.head _))))), rfl, selects_of_op 5#3 rfl (by decide)⟩

theorem rsvd6 (a b : Word) : Statement (.rsvd6 a b) :=
  ⟨_, .tail _ (.tail _ (.tail _ (.tail _ (.tail _ (.tail _ (.head _)))))), rfl, selects_of_op 6#3 rfl (by decide)⟩

theorem rsvd7 (a b : Word) : Statement (.rsvd7 a b) :=
  ⟨_, .tail _ (.tail _ (.tail _ (.tail _ (.tail _ (.tail _ (.tail _ (.head _))))))), rfl, selects_of_op 7#3 rfl (by decide)⟩

end Sys2Proof.Laws.Row
end

