-- ==== Sys2Proof/Tests/Slice0.lean ====
section
/-! SUPPORT. The model's own tests, each one decode, one command or one edge; expected values come from spec/ (the rule or
section is named at each). Then, for every obligation with hypotheses, a concrete case that meets them. -/

namespace Sys2Proof.Tests

open Sys2Proof.Machine Sys2Proof.Claims

/-! ### Helpers -/

/-- The main test key of the spec's vectors. -/
def testKey : Word := 0x548c9decbce65297#64

/-- The responses of program P3 (95_test_vectors.md section 3). -/
def resp0 : Response := ⟨.ok, 0x0000000036d88366#64⟩
def resp1 : Response := ⟨.ok, 0x00000000944716e0#64⟩
def resp2 : Response := ⟨.ok, 0x00000000c8a8f4e0#64⟩

/-- The reference instance with the given queue, head not yet on offer, and the given edges to come. -/
def at_ (pend : List Response) (edges : List Edge) : State := { State.reset with pend := pend, schedule := edges }

/-- The edge at which `U32 testKey, index` is offered. -/
def drawEdge (index : Word) (ready late : Bool) : Edge := ⟨false, true, ⟨0#3, testKey, index⟩, ready, late⟩

/-- The queue after a result. -/
def pendOf : Result → List Response
  | .next t => t.pend
  | .fault _ => []
  | .refused _ => []

/-- What the requester has taken after a result. -/
def deliveredOf : Result → List RspWord
  | .next t => t.delivered
  | .fault _ => []
  | .refused _ => []

/-! ### Well-formedness: each check refuses an ill-formed term (00_scope.md R9) -/

theorem test_reference_config_is_legal : Config.reference.wf = true := by decide

theorem test_popMin_zero_is_refused : Config.popMinPositive { Config.reference with popMin := 0 } = false := by decide

theorem test_popMin_above_popMax_is_refused :
    Config.boundsOrdered { Config.reference with popMin := 41 } = false := by decide

theorem test_popMax_above_64_is_refused :
    Config.popMaxInRange { Config.reference with popMax := 65 } = false := by decide

theorem test_even_m1_is_refused : Config.m1Odd { Config.reference with deriveM1 := 2#64 } = false := by decide

theorem test_even_m2_is_refused : Config.m2Odd { Config.reference with deriveM2 := 2#64 } = false := by decide

theorem test_depth_zero_is_refused : Config.depthPositive { Config.reference with depth := 0 } = false := by decide

theorem test_wf_refuses_each : (Config.wf { Config.reference with popMin := 0 }) = false ∧
    (Config.wf { Config.reference with popMin := 41 }) = false ∧
    (Config.wf { Config.reference with popMax := 65 }) = false ∧
    (Config.wf { Config.reference with deriveM1 := 2#64 }) = false ∧
    (Config.wf { Config.reference with deriveM2 := 2#64 }) = false ∧
    (Config.wf { Config.reference with depth := 0 }) = false := by decide

/-! ### Decoding: words written out from the `op` column of 30_encoding.md R52 and the vectors of section 2.1 -/

theorem test_decode_u32 : decode (0b000#3 ++ testKey ++ 1#64 : BitVec 131) = .u32 testKey 1#64 := by decide
theorem test_decode_u64 : decode 0x1548c9decbce652970000000000000001#131 = .u64 testKey 1#64 := by decide
theorem test_decode_key :
    decode 0x20000000000000001deadbeefdeadbeef#131 = .key 1#64 0xdeadbeefdeadbeef#64 := by decide
theorem test_decode_checked : decode 0x3548c9decbce652970000000000000000#131 = .checked testKey 0#64 := by decide
theorem test_decode_unchecked : decode 0x400000000000000040000000000000000#131 = .unchecked 4#64 0#64 := by decide
theorem test_decode_rsvd5 : decode 0x5548c9decbce652970000000000000001#131 = .rsvd5 testKey 1#64 := by decide
theorem test_decode_rsvd6 : decode 0x600000000000000000000000000000000#131 = .rsvd6 0#64 0#64 := by decide
theorem test_decode_rsvd7 : decode 0x7ffffffffffffffffffffffffffffffff#131 =
    .rsvd7 0xffffffffffffffff#64 0xffffffffffffffff#64 := by decide

theorem test_encode_u64 : encode (.u64 testKey 3#64) = 0x1548c9decbce652970000000000000003#131 := by decide

/-- "bit 131 does not exist" (R50). -/
theorem test_bit_131_is_rejected : decodeNat (2 ^ 131) = .error .bitAbove130 ∧ decodeTableWord 136 (2 ^ 131) = none := by
  decide

/-- The table's rows do not overlap. -/
theorem test_rows_do_not_overlap : opcodeTable.Pairwise fun p q => p.mask = q.mask ∧ p.pattern ≠ q.pattern := by decide

/-! ### Commands: one or two vectors each -/

/-- 41_u32.md R92, example. -/
theorem test_u32_example :
    pendOf (exec (.u32 testKey 1#64) State.reset) = [⟨.ok, 0x00000000944716e0#64⟩] := by decide

/-- R95: the product `index * key` wraps. -/
theorem test_u32_wraps :
    pendOf (exec (.u32 3#64 0x8000000000000000#64) State.reset) = [⟨.ok, 0xd1000000#64⟩] := by decide

/-- 42_u64.md R103, example with `DOC`. -/
theorem test_u64_doc_example :
    pendOf (exec (.u64 testKey 1#64) State.reset) = [⟨.ok, 0x1f81c13bef40eab5#64⟩] := by decide

/-- R103, example with `PUBLISHED`. -/
theorem test_u64_published_example :
    drawU64 .published testKey 1#64 = 0x944716e00e60dfaa#64 := by decide

/-- 95_test_vectors.md section 2.4, one pass of the second loop. -/
theorem test_key_too_dense :
    pendOf (exec (.key 0x1f#64 0#64) State.reset) = [⟨.ok, 0x57599677879feaeb#64⟩] := by decide

/-- Section 2.4, 22 passes of the first loop. -/
theorem test_key_worst_sparse :
    derive Config.reference 0x46704a95a7626e97#64 = 0x0000000000ffffff#64 := by decide

/-- Section 2.2: zero is even, not pop_low. -/
theorem test_checked_zero_is_even :
    pendOf (exec (.checked 0#64 0#64) State.reset) = [⟨.invalidKeyEven, 0#64⟩] := by decide

/-- Section 2.2: exactly `POP_MAX` bits. -/
theorem test_checked_at_popMax :
    pendOf (exec (.checked 0xffffffffff#64 0#64) State.reset) = [⟨.ok, 0xffffffffff#64⟩] := by decide

/-- Section 2.3: 4 stays 4. -/
theorem test_unchecked_does_not_repair :
    pendOf (exec (.unchecked 4#64 0#64) State.reset) = [⟨.ok, 4#64⟩] := by decide

/-- Section 2.1. -/
theorem test_rsvd5 : pendOf (exec (.rsvd5 testKey 1#64) State.reset) = [⟨.illegalOp, 0#64⟩] := by decide
theorem test_rsvd6 : pendOf (exec (.rsvd6 0#64 0#64) State.reset) = [⟨.illegalOp, 0#64⟩] := by decide
theorem test_rsvd7 : pendOf (exec (.rsvd7 7#64 7#64) State.reset) = [⟨.illegalOp, 0#64⟩] := by decide

/-- A word offered as the first request after reset runs. -/
theorem test_first_request_after_reset :
    pendOf (step (State.reset.withFetchWord 131 0x0548c9decbce652970000000000000001)) = [resp1] := by decide

/-! ### Single edges, the rows of 95_test_vectors.md section 2.7 -/

theorem test_edge_accept_into_empty : pendOf (step (at_ [] [drawEdge 0#64 true true])) = [resp0] := by decide
theorem test_edge_accept_behind_one : pendOf (step (at_ [resp0] [drawEdge 1#64 false true])) = [resp0, resp1] := by decide
theorem test_edge_accept_and_deliver :
    pendOf (step (at_ [resp0] [drawEdge 1#64 true true])) = [resp1] ∧
    deliveredOf (step (at_ [resp0] [drawEdge 1#64 true true])) = [0x00000000036d88366#67] := by decide
theorem test_edge_latency_not_elapsed :
    pendOf (step (at_ [resp0] [drawEdge 1#64 true false])) = [resp0, resp1] := by decide
theorem test_edge_full_refuses_while_delivering :
    pendOf (step (at_ [resp0, resp1] [drawEdge 2#64 true true])) = [resp1] := by decide
theorem test_edge_full_waits :
    pendOf (step (at_ [resp0, resp1] [drawEdge 2#64 false true])) = [resp0, resp1] := by decide
theorem test_edge_reset :
    pendOf (step (at_ [resp0, resp1] [{ drawEdge 2#64 true true with rst := true }])) = [] := by decide
theorem test_edge_idle : pendOf (step (at_ [] [])) = [] := by decide

/-- R33: an offer made at an earlier edge stands although this edge's latency bit is 0. -/
theorem test_edge_offer_stands :
    pendOf (step { at_ [resp0] [drawEdge 1#64 true false] with offered := true }) = [resp1] := by decide

/-! ### Listing (30_encoding.md R58, its example) -/

theorem test_response_line : responseLine resp0 =
    ['<', ' ', 'O', 'K', ' ', '0', 'x', '0', '0', '0', '0', '0', '0', '0', '0', '3', '6', 'd', '8', '8', '3', '6', '6',
      ' ', ' ', ' ', ';', ' ', 'R', 'S', 'P', '=', '0', '0', '0', '0', '0', '0', '0', '0', '0', '3', '6', 'd', '8', '8',
      '3', '6', '6'] := by decide

theorem test_request_line_without_comment : readRequestLine
    ['>', ' ', 'K', 'E', 'Y', ' ', '0', 'x', '0', '0', '0', '0', '0', '0', '0', '0', '0', '0', '0', '0', '0', '0', '0', '1']
      = some (.key 1#64 0#64) := by decide

/-! ### Witnesses: for each obligation with hypotheses, a case that meets them all -/

/-- Room, and a `DOC` build: U32AppendsTheFourRoundWord, U64AppendsTheFiveRoundWord, DocWordComesFromTheU32Round4,
ZeroKeyDrawsZero, CheckedReportsItsVerdict (its outer hypothesis), CheckedSucceedsExactlyOnAdmissible,
UncheckedReturnsTheValue, ReservedOpcodesRespondIllegalOp, KeyAppendsAnAdmissibleKey, ResponseIsTheOneItWouldGetAlone: one
place left in a queue of two. -/
theorem witness_room_on_the_reference_build :
    (at_ [resp0] []).pend.length < (at_ [resp0] []).config.depth ∧ (at_ [resp0] []).config.wf = true ∧
      (at_ [resp0] []).config.u64Final = .doc := by decide

/-- U64AppendsTheFiveRoundWord and PublishedTopHalfIsTheU32Word on the other build. -/
theorem witness_room_on_the_published_build :
    ({ State.reset with config := { Config.reference with u64Final := .published } } : State).pend.length
        < ({ State.reset with config := { Config.reference with u64Final := .published } } : State).config.depth ∧
      ({ State.reset with config := { Config.reference with u64Final := .published } } : State).config.u64Final
        = .published := by decide

/-- KeyAppendsAnAdmissibleKey on a build whose `SCRAMBLE` and `ADJUST` are not the reference ones. -/
theorem witness_other_build_is_legal :
    Config.wf { Config.reference with scramble := .other 0, adjust := .other 0 } = true := by decide

/-- CheckedReportsItsVerdict, OK at exactly `POP_MIN` bits. -/
theorem witness_checked_ok_at_popMin : nAdmissible State.reset.config (0xffffff#64).toNat := by
  unfold nAdmissible; decide

/-- CheckedReportsItsVerdict, OK at exactly `POP_MAX` bits. -/
theorem witness_checked_ok_at_popMax : nAdmissible State.reset.config (0xffffffffff#64).toNat := by
  unfold nAdmissible; decide

/-- CheckedReportsItsVerdict, even, with a count out of range as well. -/
theorem witness_checked_even : (4#64).toNat % 2 = 0 := by decide

/-- CheckedReportsItsVerdict, pop_low one below `POP_MIN`. -/
theorem witness_checked_low :
    (0x7fffff#64).toNat % 2 = 1 ∧ nPop (0x7fffff#64).toNat < State.reset.config.popMin := by decide

/-- CheckedReportsItsVerdict, pop_high one above `POP_MAX`. -/
theorem witness_checked_high :
    (0x1ffffffffff#64).toNat % 2 = 1 ∧ State.reset.config.popMin ≤ nPop (0x1ffffffffff#64).toNat ∧
      State.reset.config.popMax < nPop (0x1ffffffffff#64).toNat := by decide

/-- EncodeAndDecodeAreInverse, StepRunsTheOfferedCommand (second part). -/
theorem witness_instr_wf : (Instr.u32 testKey 1#64).wf = true := by decide

/-- ExactlyTheDecodedRowIsSelected. -/
theorem witness_row_of_table : (⟨.U32, 0#131, 0x700000000000000000000000000000000#131⟩ : OpcodeRow) ∈ opcodeTable := by decide

/-- ResponseWordLayout, its last clause at the least word with an unused status code. -/
theorem witness_unused_status : 5 * 2 ^ 64 ≤ (0x50000000000000000#67).toNat := by decide

/-- ReferenceScrambleArithmetic, ReferenceScrambleIsABijection. -/
theorem witness_reference_scramble : Config.reference.wf = true ∧ Config.reference.scramble = .reference := by decide

/-- ReferenceAdjustNudgesTheCount, outer hypotheses and its three clauses: in range (at the bound), sparse, dense. -/
theorem witness_reference_adjust :
    Config.reference.wf = true ∧ Config.reference.adjust = .reference ∧
    (Config.reference.popMin ≤ nPop (0xfffffe#64 ||| 1#64).toNat ∧
      nPop (0xfffffe#64 ||| 1#64).toNat ≤ Config.reference.popMax) ∧
    nPop (0x7ffffe#64 ||| 1#64).toNat < Config.reference.popMin ∧
    Config.reference.popMax < nPop (0x1ffffffffff#64 ||| 1#64).toNat := by decide

/-- ReferenceAdjustNudgesTheCount, the bit clauses: seed-image 0x100 keeps bit 8 and sets bit 9 above a set bit 1. -/
theorem witness_reference_adjust_bits :
    (0x100#64 ||| 1#64).getLsbD 8 = true ∧
    (1 < 9 ∧ (adjust Config.reference 0x100#64).getLsbD 9 = true ∧ (0x100#64 ||| 1#64).getLsbD 9 = false) ∧
    (adjust Config.reference 0xffffffffffff0000#64).getLsbD 16 = true ∧
    (62 < 63 ∧ (0xffffffffffff0000#64 ||| 1#64).getLsbD 62 = true ∧
      (adjust Config.reference 0xffffffffffff0000#64).getLsbD 62 = false) := by decide

/-- EachErrorHasItsOwnCommands, FacadeOperationsAreCommands, with each kind of answer reached. -/
theorem witness_each_answer :
    Config.reference.wf = true ∧ (answer Config.reference (.rsvd5 0#64 0#64)).status = .illegalOp ∧
      (answer Config.reference (.checked 4#64 0#64)).status = .invalidKeyEven ∧
      (answer Config.reference (.checked 1#64 0#64)).status = .invalidKeyPopLow ∧
      (answer Config.reference (.checked 0xffffffffffffffff#64 0#64)).status = .invalidKeyPopHigh ∧
      (Instr.unchecked 4#64 0#64).mnemonic = .UNCHECKED := by decide

/-- ErrorResponsesCarryZero. -/
theorem witness_error_response :
    exec (.checked 4#64 0#64) State.reset
        = .next { State.reset with pend := State.reset.pend ++ [⟨.invalidKeyEven, 0#64⟩] } ∧
      (⟨.invalidKeyEven, 0#64⟩ : Response).status ≠ .ok := ⟨rfl, by decide⟩

/-- CommandsTouchOnlyTheTailOfTheQueue. -/
theorem witness_exec_answers :
    exec (.rsvd7 0#64 0#64) State.reset
        = .next { State.reset with pend := State.reset.pend ++ [⟨.illegalOp, 0#64⟩] } := rfl

/-- FullQueueAcceptsNothing, exactly full. -/
theorem witness_full_queue :
    (at_ [resp0, resp1] []).config.depth ≤ (at_ [resp0, resp1] []).pend.length := by decide

/-- DeriveThenDrawComposes, and ResetDoesNotChangeResponses (its last clause): two instances with the same parameters and different queues. -/
theorem witness_two_instances :
    (at_ [] []).config.wf = true ∧ (at_ [resp0] []).config = (at_ [] []).config ∧
      (at_ [] []).pend.length < (at_ [] []).config.depth ∧
      (at_ [resp0] []).pend.length < (at_ [resp0] []).config.depth := by decide

/-- ValidResponseIsTheHeadOfTheQueue. -/
theorem witness_valid_response : (at_ [resp0] [drawEdge 1#64 false true]).outputs.rspValid = true := by decide

/-- OfferStaysUntilDelivered: the edge after has its latency bit at 0. -/
theorem witness_offer_stays :
    (at_ [resp0] [drawEdge 1#64 false true, drawEdge 2#64 false false]).outputs.rspValid = true ∧
    (at_ [resp0] [drawEdge 1#64 false true, drawEdge 2#64 false false]).edge.rspReady = false ∧
    step (at_ [resp0] [drawEdge 1#64 false true, drawEdge 2#64 false false]) =
      .next ⟨Config.reference, [resp0, resp1], true, [drawEdge 2#64 false false], [], 1⟩ ∧
    (⟨Config.reference, [resp0, resp1], true, [drawEdge 2#64 false false], [], 1⟩ : State).edge.rst = false :=
  ⟨by decide, by decide, rfl, by decide⟩

/-- UnofferedRequestPortsAreIgnored. -/
theorem witness_no_offer : Edge.idle.reqValid = false := by decide

/-- StepRunsTheOfferedCommand (first part). -/
theorem witness_offered_request :
    (at_ [] [drawEdge 1#64 false false]).edge.rst = false ∧ (at_ [] [drawEdge 1#64 false false]).edge.reqValid = true ∧
      decodeRequest (at_ [] [drawEdge 1#64 false false]).edge.req = .u32 testKey 1#64 := by decide

/-- QueueAfterOneEdge, DeliveredAfterOneEdge: an edge that accepts and delivers. -/
theorem witness_accept_and_deliver :
    (at_ [resp0] [drawEdge 1#64 true true]).config.wf = true ∧
    ((at_ [resp0] [drawEdge 1#64 true true]).outputs.rspValid = true ∧
      (at_ [resp0] [drawEdge 1#64 true true]).edge.rspReady = true) ∧
    step (at_ [resp0] [drawEdge 1#64 true true]) =
      .next ⟨Config.reference, [resp1], false, [], [0x00000000036d88366#67], 1⟩ :=
  ⟨by decide, by decide, rfl⟩

/-- DeliveredAfterOneEdge, an edge that delivers nothing because the requester is not ready. -/
theorem witness_no_deliver :
    ¬ ((at_ [resp0] [drawEdge 1#64 false true]).outputs.rspValid = true ∧
      (at_ [resp0] [drawEdge 1#64 false true]).edge.rspReady = true) ∧
    step (at_ [resp0] [drawEdge 1#64 false true]) = .next ⟨Config.reference, [resp0, resp1], true, [], [], 1⟩ :=
  ⟨by decide, rfl⟩

/-- FullQueueRefusesWhileDelivering. -/
theorem witness_full_while_delivering :
    (at_ [resp0, resp1] [drawEdge 2#64 true true]).edge.rst = false ∧
    (at_ [resp0, resp1] [drawEdge 2#64 true true]).edge.reqValid = true ∧
    (at_ [resp0, resp1] [drawEdge 2#64 true true]).config.depth
      ≤ (at_ [resp0, resp1] [drawEdge 2#64 true true]).pend.length ∧
    (at_ [resp0, resp1] [drawEdge 2#64 true true]).outputs.rspValid = true ∧
    (at_ [resp0, resp1] [drawEdge 2#64 true true]).edge.rspReady = true := by decide

/-- NothingIsOfferedAtItsAcceptingEdge: latency bit and requester are both ready. -/
theorem witness_accept_into_empty :
    (at_ [] [drawEdge 0#64 true true]).pend = [] ∧
    step (at_ [] [drawEdge 0#64 true true]) = .next ⟨Config.reference, [resp0], false, [], [], 1⟩ :=
  ⟨rfl, rfl⟩

/-- ResetEdgeEmptiesTheQueue (with a second reset edge), AfterResetTheEngineIsReady and ResetDoesNotChangeResponses (with
an edge without reset after it). -/
theorem witness_reset_edges :
    (at_ [resp0] [{ drawEdge 2#64 true true with rst := true }, { drawEdge 2#64 true true with rst := true }]).edge.rst
      = true ∧
    (⟨Config.reference, [], false, [{ drawEdge 2#64 true true with rst := true }], [], 1⟩ : State).edge.rst = true ∧
    step (at_ [resp0] [{ drawEdge 2#64 true true with rst := true }, { drawEdge 2#64 true true with rst := true }]) =
      .next ⟨Config.reference, [], false, [{ drawEdge 2#64 true true with rst := true }], [], 1⟩ :=
  ⟨by decide, by decide, rfl⟩

theorem witness_reset_then_request :
    (at_ [resp0] [{ Edge.idle with rst := true }, drawEdge 2#64 true true]).config.wf = true ∧
    (at_ [resp0] [{ Edge.idle with rst := true }, drawEdge 2#64 true true]).pend.length
      < (at_ [resp0] [{ Edge.idle with rst := true }, drawEdge 2#64 true true]).config.depth ∧
    (at_ [resp0] [{ Edge.idle with rst := true }, drawEdge 2#64 true true]).edge.rst = true ∧
    step (at_ [resp0] [{ Edge.idle with rst := true }, drawEdge 2#64 true true]) =
      .next ⟨Config.reference, [], false, [drawEdge 2#64 true true], [], 1⟩ ∧
    (⟨Config.reference, [], false, [drawEdge 2#64 true true], [], 1⟩ : State).edge.rst = false :=
  ⟨by decide, by decide, by decide, rfl, by decide⟩

/-- ResetStateIsTheSpecs (its last clause). -/
theorem witness_edge_without_reset : (drawEdge 0#64 true true).rst = false := by decide

/-- EveryStepKeepsTheInvariant: a state in mid-run, on offer, with an error queued and a response taken. -/
theorem witness_inv_mid_run :
    (⟨Config.reference, [⟨.invalidKeyEven, 0#64⟩, resp1], true, [], [resp0.word], 5⟩ : State).Inv where
  legal := by decide
  bounded := by decide
  offeredNonempty := by decide
  pendLawful := by
    intro r hr
    simp only [List.mem_cons, List.not_mem_nil, or_false] at hr
    rcases hr with rfl | rfl
    · exact fun _ => rfl
    · exact fun h => absurd rfl h
  deliveredLawful := by
    intro w hw
    simp only [List.mem_cons, List.not_mem_nil, or_false] at hw
    exact ⟨resp0, hw, fun h => absurd rfl h⟩

/-- ParametersNeverChange, DeliveryInAcceptanceOrder, EveryChanceDeliversAQueuedResponse,
EveryOfferComesByTheEndOfTheSchedule: one edge without reset from a queue that is not empty. -/
theorem witness_run_one_edge :
    (at_ [resp0] [drawEdge 1#64 true true]).config.wf = true ∧ (at_ [resp0] [drawEdge 1#64 true true]).pend ≠ [] ∧
    (at_ [resp0] [drawEdge 1#64 true true]).schedule.length = 1 ∧
    (at_ [resp0] [drawEdge 1#64 true true]).noResetWithin 1 ∧
    Host.Core.run Sys2Proof.core 1 (at_ [resp0] [drawEdge 1#64 true true]) =
      .next ⟨Config.reference, [resp1], false, [], [0x00000000036d88366#67], 1⟩ :=
  ⟨by decide, by decide, rfl, by unfold State.noResetWithin; decide, rfl⟩

/-- BackPressureStopsAtDepth: the queue fills at the first edge and refuses at the second. -/
theorem witness_back_pressure :
    (at_ [resp0] [drawEdge 1#64 false true, drawEdge 2#64 false true]).pend.length
      ≤ (at_ [resp0] [drawEdge 1#64 false true, drawEdge 2#64 false true]).config.depth ∧
    (at_ [resp0] [drawEdge 1#64 false true, drawEdge 2#64 false true]).noResetWithin 2 ∧
    (∀ e ∈ (at_ [resp0] [drawEdge 1#64 false true, drawEdge 2#64 false true]).schedule.take 2, e.rspReady = false) ∧
    Host.Core.run Sys2Proof.core 2 (at_ [resp0] [drawEdge 1#64 false true, drawEdge 2#64 false true]) =
      .next ⟨Config.reference, [resp0, resp1], true, [], [], 2⟩ :=
  ⟨by decide, by unfold State.noResetWithin; decide, by decide, rfl⟩

end Sys2Proof.Tests
end

/-! PROOF. What a run of edges is made of, the induction along a run, and the parameters of an instance (00_scope.md R9,
10_state.md R35). -/

namespace Sys2Proof.Machine

section run
variable {M : Host.Core} {n : Nat} {s t : M.State}

theorem run_zero_eq_next_iff : M.run 0 s = .next t ↔ s = t := by
  simp [Host.Core.run]

/-- A run of `n + 1` steps answers a next state exactly when its first step does and the other `n` go on from there. -/
theorem run_succ_eq_next_iff : M.run (n + 1) s = .next t ↔ ∃ u, M.step s = .next u ∧ M.run n u = .next t := by
  rw [Host.Core.run]
  cases M.step s <;> simp

/-- The induction along a run: what every step keeps, every run keeps. -/
theorem run_preserves {P : M.State → Prop} (hstep : ∀ u v, P u → M.step u = .next v → P v) (hs : P s)
    (hrun : M.run n s = .next t) : P t := by
  induction n generalizing s with
  | zero => exact run_zero_eq_next_iff.1 hrun ▸ hs
  | succ n ih =>
    obtain ⟨u, hu, hrest⟩ := run_succ_eq_next_iff.1 hrun
    exact ih (hstep s u hs hu) hrest

end run

/-- One edge leaves the parameters as they are: they are no state (R35). -/
theorem step_config {s t : State} (h : step s = .next t) : t.config = s.config := by
  rcases step_cases s with ⟨-, hreset⟩ | ⟨-, -, st, d, -, -, haccept⟩ | ⟨-, -, hclose⟩
  · cases hreset.symm.trans h
    exact s.resetEdge_config
  · cases haccept.symm.trans h
    rw [State.closeEdge_config, State.push_config]
  · cases hclose.symm.trans h
    exact s.closeEdge_config s

/-- Settles O44, by induction along the run: each edge leaves the parameters as they are. -/
theorem parametersNeverChange : Obligations.ParametersNeverChange := by
  intro n s t hrun
  exact run_preserves (M := Sys2Proof.core) (P := fun u : State => u.config = s.config)
    (fun _ _ hu hstep => (step_config hstep).trans hu) rfl hrun

end Sys2Proof.Machine

/-! PROOF. Facts about the parameters (00_scope.md R9) and the request word (30_encoding.md R50). -/

namespace Sys2Proof

theorem Config.depth_pos_of_wf {c : Config} (h : c.wf = true) : 0 < c.depth := by
  simp only [Config.wf, Config.depthPositive, Bool.and_eq_true, decide_eq_true_eq] at h
  exact h.2

@[simp] theorem Request.ofWord_toWord (r : Request) : Request.ofWord r.toWord = r := by
  obtain ⟨op, a, b⟩ := r
  have hop : (op ++ a ++ b).extractLsb' 128 3 = op :=
    (BitVec.extractLsb'_append_eq_of_le (by decide)).trans BitVec.extractLsb'_append_eq_left
  have ha : (op ++ a ++ b).extractLsb' 64 64 = a :=
    (BitVec.extractLsb'_append_eq_of_le (by decide)).trans BitVec.extractLsb'_append_eq_right
  have hb : (op ++ a ++ b).extractLsb' 0 64 = b := BitVec.extractLsb'_append_eq_right
  simp only [Request.ofWord, Request.toWord, hop, ha, hb]

end Sys2Proof

/-! PROOF. The response a command gives is a function of the request and the parameters (10_state.md R20), and from it what
one edge answers, as one equation (R31 to R33). -/

namespace Sys2Proof.Machine

section answer
variable {s u : State} {c : Config}

/-- On two instances with the same parameters a command ends in the same `respond`. -/
theorem exec_eq_respond_of_config_eq (i : Instr) (hc : u.config = s.config) :
    ∃ st d, exec i s = respond st d s ∧ exec i u = respond st d u := by
  cases i with
  | u32 k x => exact ⟨.ok, _, rfl, rfl⟩
  | u64 k x => exact ⟨.ok, _, rfl, hc ▸ rfl⟩
  | key m b => exact ⟨.ok, _, rfl, hc ▸ rfl⟩
  | checked v b =>
    simp only [exec, execChecked, hc]
    cases classify s.config v with
    | none => exact ⟨.ok, v, rfl, rfl⟩
    | some flaw => exact ⟨_, 0#64, rfl, rfl⟩
  | unchecked v b => exact ⟨.ok, v, rfl, rfl⟩
  | rsvd5 a b => exact ⟨.illegalOp, 0#64, rfl, rfl⟩
  | rsvd6 a b => exact ⟨.illegalOp, 0#64, rfl, rfl⟩
  | rsvd7 a b => exact ⟨.illegalOp, 0#64, rfl, rfl⟩

theorem answer_of_exec_eq_push {i : Instr} {r : Response}
    (h : exec i { State.reset with config := c } = .next (State.push { State.reset with config := c } r)) :
    answer c i = r := by
  rw [answer, h]
  rfl

/-- With room, a command appends the answer it gets alone: where a queue has room, an empty one has too. -/
theorem exec_of_room (i : Instr) (hroom : s.pend.length < s.config.depth) :
    exec i s = .next (s.push (answer s.config i)) := by
  obtain ⟨st, d, hs, halone⟩ :=
    exec_eq_respond_of_config_eq (s := s) (u := { State.reset with config := s.config }) i rfl
  have hempty : State.hasRoom { State.reset with config := s.config } = true :=
    (State.hasRoom_iff _).2 (Nat.zero_lt_of_lt hroom)
  rw [answer_of_exec_eq_push (halone.trans (respond_of_room hempty st d)), hs,
    respond_of_room ((State.hasRoom_iff s).2 hroom)]

theorem exec_of_full (i : Instr) (hfull : s.config.depth ≤ s.pend.length) : exec i s = .next s := by
  obtain ⟨st, d, he, -⟩ := exec_eq_respond i s
  rw [he, respond_of_full (by simpa [State.hasRoom] using hfull)]

/-- Every answer obeys R56. -/
theorem answer_lawful (c : Config) (i : Instr) : (answer c i).Lawful := by
  rcases exec_cases i { State.reset with config := c } with ⟨-, st, d, hz, he⟩ | ⟨-, he⟩
  · rw [answer_of_exec_eq_push he]
    exact hz
  · rw [answer, he]
    exact fun _ => rfl

end answer

section afterAccepts

/-- The state with the response of the request accepted at the edge to come, if one is, at the tail of the queue. -/
def State.afterAccepts (s : State) : State := { s with pend := s.pend ++ s.acceptedAnswers }

variable {s t : State}

@[simp] theorem State.afterAccepts_config : s.afterAccepts.config = s.config := rfl
@[simp] theorem State.afterAccepts_pend : s.afterAccepts.pend = s.pend ++ s.acceptedAnswers := rfl
@[simp] theorem State.afterAccepts_delivered : s.afterAccepts.delivered = s.delivered := rfl

theorem State.accepts_iff :
    s.accepts = true ↔ s.edge.rst = false ∧ s.edge.reqValid = true ∧ s.pend.length < s.config.depth := by
  simp [State.accepts, State.reqReady, State.hasRoom_iff, and_left_comm]

theorem State.acceptedAnswers_of_accepts (h : s.accepts = true) :
    s.acceptedAnswers = [answer s.config (decodeRequest s.edge.req)] := by
  simp [State.acceptedAnswers, h]

theorem State.acceptedAnswers_of_not_accepts (h : s.accepts = false) : s.acceptedAnswers = [] := by
  simp [State.acceptedAnswers, h]

theorem State.acceptedAnswers_of_full (h : s.config.depth ≤ s.pend.length) : s.acceptedAnswers = [] := by
  apply State.acceptedAnswers_of_not_accepts
  rw [Bool.eq_false_iff, ne_eq, State.accepts_iff]
  omega

theorem State.acceptedAnswers_lawful {r : Response} (hr : r ∈ s.acceptedAnswers) : r.Lawful := by
  cases h : s.accepts with
  | false => simp [State.acceptedAnswers_of_not_accepts h] at hr
  | true =>
    rw [State.acceptedAnswers_of_accepts h, List.mem_singleton] at hr
    exact hr ▸ answer_lawful _ _

theorem State.afterAccepts_of_accepts (h : s.accepts = true) :
    s.afterAccepts = s.push (answer s.config (decodeRequest s.edge.req)) := by
  rw [State.afterAccepts, State.acceptedAnswers_of_accepts h, State.push]

theorem State.afterAccepts_of_not_accepts (h : s.accepts = false) : s.afterAccepts = s := by
  rw [State.afterAccepts, State.acceptedAnswers_of_not_accepts h, List.append_nil]

/-- What an edge without reset does: accept, then close the edge. -/
theorem step_of_no_rst (hr : s.edge.rst = false) : step s = .next (s.closeEdge s.afterAccepts) := by
  rcases step_cases s with ⟨hrst, -⟩ | ⟨-, hacc, st, d, -, he, hstep⟩ | ⟨-, hacc, hstep⟩
  · simp [hr] at hrst
  · obtain ⟨-, -, hroom⟩ := State.accepts_iff.1 hacc
    have hpush := he.symm.trans (exec_of_room _ hroom)
    rw [State.afterAccepts_of_accepts hacc, hstep, Host.Outcome.next.inj hpush]
  · rw [State.afterAccepts_of_not_accepts hacc, hstep]

/-- All that one edge can leave behind. -/
theorem step_next_cases (h : step s = .next t) :
    (s.edge.rst = true ∧ t = s.resetEdge) ∨ (s.edge.rst = false ∧ t = s.closeEdge s.afterAccepts) := by
  cases hr : s.edge.rst with
  | true => exact .inl ⟨rfl, Host.Outcome.next.inj (h.symm.trans (step_of_rst hr))⟩
  | false => exact .inr ⟨rfl, Host.Outcome.next.inj (h.symm.trans (step_of_no_rst hr))⟩

end afterAccepts

end Sys2Proof.Machine

/-! PROOF. What the ports carry (10_state.md R32, R33), how a command's word is offered on them, and what a deliver does to
the queue and to what the requester has taken. -/

namespace Sys2Proof.Machine

section ports
variable {s : State} {r : Response} {rs : List Response}

theorem State.outputs_reqReady_iff :
    s.outputs.reqReady = true ↔ s.edge.rst = false ∧ s.pend.length < s.config.depth := by
  simp [State.outputs_reqReady, State.reqReady, State.hasRoom_iff]

theorem State.outputs_of_valid_cons (hv : s.rspValid = true) (hp : s.pend = r :: rs) :
    s.outputs.rspStatus = r.status.code ∧ s.outputs.rspData = r.data := by
  obtain ⟨r', rs', hp', hst, hd, -⟩ := State.rspWord_of_valid hv
  obtain ⟨rfl, rfl⟩ := List.cons.inj (hp.symm.trans hp')
  exact ⟨hst, hd⟩

/-- An empty queue at an edge without reset: ready, and nothing on offer (R36). -/
theorem State.outputs_of_empty (hr : s.edge.rst = false) (hp : s.pend = []) (hd : 0 < s.config.depth) :
    s.outputs.reqReady = true ∧ s.outputs.rspValid = false :=
  ⟨State.outputs_reqReady_iff.2 ⟨hr, by simpa [hp] using hd⟩, by simp [State.outputs_rspValid, State.rspValid, hp]⟩

theorem Status.code_toNat_le_four (st : Status) : st.code.toNat ≤ 4 := by
  cases st <;> decide

end ports

/-- A command's word put on the ports is its request offered at the next edge. -/
theorem State.withFetchWord_encode (s : State) (i : Instr) :
    s.withFetchWord 131 (encode i).toNat = s.withEdge (offerEdge (encodeRequest i)) := by
  rw [State.withFetchWord, Nat.mod_eq_of_lt (encode i).isLt, BitVec.ofNat_toNat, BitVec.setWidth_eq, encode,
    Request.ofWord_toWord]

section deliver
variable {s : State}

theorem State.pend_ne_nil_of_delivers (h : s.delivers = true) : s.pend ≠ [] := by
  obtain ⟨hv, -⟩ := (State.delivers_iff s).1 h
  obtain ⟨-, hne, -⟩ := (State.rspValid_iff s).1 hv
  exact hne

theorem State.delivers_of_rst (h : s.edge.rst = true) : s.delivers = false := by
  simp [State.delivers, State.outputs_rspValid, State.rspValid, h]

/-- The queue after an edge without reset: the deliver takes a head that was queued before the accept (R32). -/
theorem State.closeEdge_afterAccepts_pend :
    (s.closeEdge s.afterAccepts).pend =
      (if s.delivers = true then s.pend.tail else s.pend) ++ s.acceptedAnswers := by
  rw [State.closeEdge_pend, State.afterAccepts_pend]
  split
  · next h => exact List.tail_append_of_ne_nil (State.pend_ne_nil_of_delivers h)
  · rfl

theorem State.closeEdge_afterAccepts_pend_of_not_ready (h : s.edge.rspReady = false) :
    (s.closeEdge s.afterAccepts).pend = s.pend ++ s.acceptedAnswers := by
  have hdel : ¬ s.delivers = true := by simp [State.delivers_iff, h]
  rw [State.closeEdge_afterAccepts_pend, if_neg hdel]

theorem State.closeEdge_afterAccepts_delivered_of_delivers (h : s.delivers = true) :
    ∃ r rest, s.pend = r :: rest ∧ (s.closeEdge s.afterAccepts).delivered = s.delivered ++ [r.word] := by
  obtain ⟨r, rest, hp, -, -, hw⟩ := State.rspWord_of_valid ((State.delivers_iff s).1 h).1
  exact ⟨r, rest, hp, by simp [h, hw]⟩

theorem State.closeEdge_afterAccepts_delivered_of_not_delivers (h : s.delivers = false) :
    (s.closeEdge s.afterAccepts).delivered = s.delivered := by
  simp [h]

end deliver

end Sys2Proof.Machine

/-! PROOF. The invariant: it holds right after reset, and a reset edge, an accept and the close of an edge each keep it. -/

namespace Sys2Proof.Machine

section invariant
variable {s : State}

theorem State.resetEdge_inv (h : s.Inv) : s.resetEdge.Inv where
  legal := h.legal
  bounded := Nat.zero_le _
  offeredNonempty := by simp
  pendLawful := by simp
  deliveredLawful := h.deliveredLawful

/-- An accept keeps the queue within its depth: a full queue accepts nothing. -/
theorem State.afterAccepts_bounded (h : s.pend.length ≤ s.config.depth) :
    s.afterAccepts.pend.length ≤ s.config.depth := by
  cases hacc : s.accepts with
  | false => rwa [State.afterAccepts_of_not_accepts hacc]
  | true =>
    obtain ⟨-, -, hroom⟩ := State.accepts_iff.1 hacc
    rw [State.afterAccepts_of_accepts hacc]
    simpa using hroom

theorem State.closeEdge_afterAccepts_inv (h : s.Inv) : (s.closeEdge s.afterAccepts).Inv where
  legal := h.legal
  bounded := by
    have hb := State.afterAccepts_bounded h.bounded
    rw [State.closeEdge_pend, State.closeEdge_config, State.afterAccepts_config]
    split
    · exact (List.tail_sublist _).length_le.trans hb
    · exact hb
  offeredNonempty := by
    intro hoff
    obtain ⟨hv, hnot⟩ : s.rspValid = true ∧ s.edge.rspReady = false := by
      simpa [State.outputs_rspValid] using hoff
    obtain ⟨-, hne, -⟩ := (State.rspValid_iff s).1 hv
    rw [State.closeEdge_afterAccepts_pend_of_not_ready hnot]
    exact List.append_ne_nil_of_left_ne_nil hne _
  pendLawful := by
    intro r hr
    rw [State.closeEdge_afterAccepts_pend, List.mem_append] at hr
    rcases hr with hold | hnew
    · refine h.pendLawful r ?_
      split at hold
      · exact List.mem_of_mem_tail hold
      · exact hold
    · exact State.acceptedAnswers_lawful hnew
  deliveredLawful := by
    intro w hw
    cases hdel : s.delivers with
    | false => exact h.deliveredLawful w (State.closeEdge_afterAccepts_delivered_of_not_delivers hdel ▸ hw)
    | true =>
      obtain ⟨r, rest, hp, hd⟩ := State.closeEdge_afterAccepts_delivered_of_delivers hdel
      rw [hd, List.mem_append, List.mem_singleton] at hw
      rcases hw with hold | hnew
      · exact h.deliveredLawful w hold
      · exact ⟨r, hnew, h.pendLawful r (hp ▸ List.mem_cons_self)⟩

end invariant

/-- Settles O43: an edge is a reset, or an accept followed by the close of the edge, and each keeps the invariant. -/
theorem everyStepKeepsTheInvariant : Obligations.EveryStepKeepsTheInvariant := by
  intro s t hs hstep
  rcases step_next_cases hstep with ⟨-, rfl⟩ | ⟨-, rfl⟩
  · exact State.resetEdge_inv hs
  · exact State.closeEdge_afterAccepts_inv hs

/-- Settles O42. -/
theorem resetStateMeetsTheInvariant : Obligations.ResetStateMeetsTheInvariant where
  legal := by decide
  bounded := Nat.zero_le _
  offeredNonempty := by simp [State.reset]
  pendLawful := by simp [State.reset]
  deliveredLawful := by simp [State.reset]

end Sys2Proof.Machine

/-! PROOF. The obligations on responses, ports, single edges and reset, from the rules above. -/

namespace Sys2Proof.Machine

/-- Settles O22: a command with room appends the answer it gets alone. -/
theorem responseIsTheOneItWouldGetAlone : Obligations.ResponseIsTheOneItWouldGetAlone :=
  fun _ _ _ _ _ hroom => exec_of_room _ hroom

/-- Settles O24. -/
theorem fullQueueAcceptsNothing : Obligations.FullQueueAcceptsNothing :=
  fun i _ hfull => exec_of_full i hfull

/-- Settles O28: `rsp_ready` is not among what `req_ready` is judged on. -/
theorem reqReadyIsRoomWithoutReset : Obligations.ReqReadyIsRoomWithoutReset := by
  refine fun s => ⟨State.outputs_reqReady_iff, fun e ready => ?_⟩
  rw [Bool.eq_iff_iff, State.outputs_reqReady_iff, State.outputs_reqReady_iff]
  simp

/-- Settles O29. -/
theorem validResponseIsTheHeadOfTheQueue : Obligations.ValidResponseIsTheHeadOfTheQueue := by
  intro s hv
  rw [State.outputs_rspValid] at hv
  obtain ⟨hr, -, -⟩ := (State.rspValid_iff s).1 hv
  obtain ⟨r, rest, hp, hst, hd, -⟩ := State.rspWord_of_valid hv
  exact ⟨hr, ⟨r, rest, hp, hst, hd⟩, hst ▸ r.status.code_toNat_le_four⟩

/-- Settles O30: the edge leaves the head where it is and remembers that it is on offer. -/
theorem offerStaysUntilDelivered : Obligations.OfferStaysUntilDelivered := by
  intro s t hv hready hstep hrt
  rw [State.outputs_rspValid] at hv
  obtain ⟨hrs, -, -⟩ := (State.rspValid_iff s).1 hv
  obtain ⟨r, rest, hp, hst, hd, -⟩ := State.rspWord_of_valid hv
  rcases step_next_cases hstep with ⟨hrst, -⟩ | ⟨-, rfl⟩
  · simp [hrs] at hrst
  · have hpend : (s.closeEdge s.afterAccepts).pend = r :: (rest ++ s.acceptedAnswers) := by
      rw [State.closeEdge_afterAccepts_pend_of_not_ready hready, hp, List.cons_append]
    have hoff : (s.closeEdge s.afterAccepts).offered = true := by simp [State.outputs_rspValid, hv, hready]
    have hvalid : (s.closeEdge s.afterAccepts).rspValid = true :=
      (State.rspValid_iff _).2 ⟨hrt, List.ne_nil_of_mem (hpend ▸ List.mem_cons_self), .inl hoff⟩
    obtain ⟨hst', hd'⟩ := State.outputs_of_valid_cons hvalid hpend
    exact ⟨(State.outputs_rspValid _).trans hvalid, hst'.trans hst.symm, hd'.trans hd.symm⟩

/-- Settles O31: neither a reset edge nor an edge without an offer reads the request. -/
theorem unofferedRequestPortsAreIgnored : Obligations.UnofferedRequestPortsAreIgnored := by
  intro s e req hv
  by_cases hr : e.rst = true
  · exact (step_of_rst (s := s.withEdge { e with req := req }) hr).trans (step_of_rst (s := s.withEdge e) hr).symm
  · rw [Bool.not_eq_true] at hr
    exact (step_of_no_offer (s := s.withEdge { e with req := req }) hr hv).trans
      (step_of_no_offer (s := s.withEdge e) hr hv).symm

/-- Settles O32. -/
theorem stepRunsTheOfferedCommand : Obligations.StepRunsTheOfferedCommand := by
  refine ⟨fun s i hr hv hi => hi ▸ step_of_offer hr hv, fun s i _ => ?_⟩
  rw [State.withFetchWord_encode, step_of_offer rfl rfl, State.withEdge_edge, offerEdge_req,
    decodeRequest_encodeRequest]

/-- Settles O34. -/
theorem queueAfterOneEdge : Obligations.QueueAfterOneEdge := by
  intro s t _ hstep
  rcases step_next_cases hstep with ⟨hr, rfl⟩ | ⟨hr, rfl⟩
  · rw [if_pos hr, State.resetEdge_pend]
  · rw [State.closeEdge_afterAccepts_pend]
    simp [State.acceptedAnswers, State.accepts_iff, State.delivers_iff, State.outputs_rspValid, hr]

/-- Settles O35. -/
theorem deliveredAfterOneEdge : Obligations.DeliveredAfterOneEdge := by
  intro s t hstep
  rw [State.outputs_rspValid, ← State.delivers_iff, Bool.not_eq_true]
  refine ⟨step_config hstep, ?_⟩
  rcases step_next_cases hstep with ⟨hr, rfl⟩ | ⟨-, rfl⟩
  · exact ⟨rfl, by simp [State.delivers_of_rst hr], fun _ => rfl⟩
  · exact ⟨rfl, State.closeEdge_afterAccepts_delivered_of_delivers,
      State.closeEdge_afterAccepts_delivered_of_not_delivers⟩

/-- Settles O36: room is judged on the queue before the edge. -/
theorem fullQueueRefusesWhileDelivering : Obligations.FullQueueRefusesWhileDelivering := by
  intro s hr _ hfull hv hready
  have hdel : s.delivers = true := by simp [State.delivers, hv, hready]
  refine ⟨_, step_of_no_rst hr, ?_⟩
  rw [State.closeEdge_afterAccepts_pend, if_pos hdel, State.acceptedAnswers_of_full hfull, List.append_nil]

/-- Settles O39. -/
theorem afterResetTheEngineIsReady : Obligations.AfterResetTheEngineIsReady := by
  intro s t hwf hrst hstep hrt
  obtain rfl : s.resetEdge = t := Host.Outcome.next.inj ((step_of_rst hrst).symm.trans hstep)
  exact State.outputs_of_empty hrt rfl (Config.depth_pos_of_wf hwf)

/-- Settles O40: the one response is the answer on the parameters, which a reset leaves alone. -/
theorem resetDoesNotChangeResponses : Obligations.ResetDoesNotChangeResponses := by
  intro s t i _ hroom hrst hstep
  obtain rfl : s.resetEdge = t := Host.Outcome.next.inj ((step_of_rst hrst).symm.trans hstep)
  refine ⟨answer s.config i, exec_of_room i hroom, ?_, fun u hu huroom => ?_⟩
  · exact exec_of_room (s := s.resetEdge) i (Nat.zero_lt_of_lt hroom)
  · exact hu ▸ exec_of_room i huroom

/-- Settles O41. -/
theorem resetStateIsTheSpecs : Obligations.ResetStateIsTheSpecs :=
  ⟨rfl, rfl, rfl, rfl, rfl, fun _ hr => State.outputs_of_empty hr rfl Nat.two_pos⟩

end Sys2Proof.Machine

/-! PROOF. A run without reset (20_memory.md R46, 70_reset_and_hazards.md R147): what each edge leaves of the reset-free
schedule, and the response words taken or queued, to which an edge adds the answer of the request it accepts. -/

namespace Sys2Proof.Machine

section runWithoutReset
variable {n : Nat} {s t : State}

/-- Every edge, a reset edge too, uses up one entry of the schedule. -/
theorem step_schedule (h : step s = .next t) : t.schedule = s.schedule.tail := by
  rcases step_next_cases h with ⟨-, rfl⟩ | ⟨-, rfl⟩
  · exact s.resetEdge_schedule
  · exact s.closeEdge_schedule _

/-- Beyond the schedule the edges are idle, and an idle edge is no reset. -/
theorem State.edge_rst_of_noResetWithin (h : s.noResetWithin (n + 1)) : s.edge.rst = false := by
  cases hs : s.schedule with
  | nil => rw [State.edge_of_nil hs, Edge.idle_rst]
  | cons e es =>
    rw [State.edge_of_cons hs]
    exact h e (by simp [hs])

theorem State.noResetWithin_of_step (h : s.noResetWithin (n + 1)) (hstep : step s = .next t) :
    t.noResetWithin n := by
  intro e he
  rw [step_schedule hstep] at he
  apply h e
  cases hs : s.schedule with
  | nil => simp [hs] at he
  | cons e' es =>
    rw [hs, List.tail_cons] at he
    exact List.mem_cons_of_mem e' he

theorem State.answersWithin_zero : s.answersWithin 0 = [] := rfl

theorem State.answersWithin_succ (hstep : step s = .next t) :
    s.answersWithin (n + 1) = s.acceptedAnswers ++ t.answersWithin n := by
  rw [State.answersWithin, hstep]

end runWithoutReset

section responseWords
variable {s t : State}

/-- The response words the requester has taken, followed by those still queued, oldest first. -/
def State.responseWords (s : State) : List RspWord := s.delivered ++ s.pend.map Response.word

/-- A deliver moves the head of the queue to the end of the taken words, and an accept adds its answer at the tail. -/
theorem State.closeEdge_afterAccepts_responseWords :
    (s.closeEdge s.afterAccepts).responseWords = s.responseWords ++ s.acceptedAnswers.map Response.word := by
  rw [State.responseWords, State.responseWords, State.closeEdge_afterAccepts_pend]
  cases hdel : s.delivers with
  | false =>
    rw [State.closeEdge_afterAccepts_delivered_of_not_delivers hdel]
    simp
  | true =>
    obtain ⟨r, rest, hp, hd⟩ := State.closeEdge_afterAccepts_delivered_of_delivers hdel
    rw [hd, hp]
    simp

theorem step_responseWords (hr : s.edge.rst = false) (h : step s = .next t) :
    t.responseWords = s.responseWords ++ s.acceptedAnswers.map Response.word := by
  cases (step_of_no_rst hr).symm.trans h
  exact State.closeEdge_afterAccepts_responseWords

end responseWords

/-- Settles O45, by induction on the number of edges: each adds the answer it accepts, and loses and reorders nothing. -/
theorem deliveryInAcceptanceOrder : Obligations.DeliveryInAcceptanceOrder := by
  rintro n s t - hno hrun
  change t.responseWords = s.responseWords ++ (s.answersWithin n).map Response.word
  induction n generalizing s with
  | zero =>
    cases run_zero_eq_next_iff.1 hrun
    rw [State.answersWithin_zero, List.map_nil, List.append_nil]
  | succ n ih =>
    obtain ⟨u, hstep, hrest⟩ := run_succ_eq_next_iff.1 hrun
    calc t.responseWords
        = u.responseWords ++ (u.answersWithin n).map Response.word :=
          ih u (State.noResetWithin_of_step hno hstep) hrest
      _ = s.responseWords ++ s.acceptedAnswers.map Response.word ++ (u.answersWithin n).map Response.word := by
          rw [step_responseWords (State.edge_rst_of_noResetWithin hno) hstep]
      _ = s.responseWords ++ (s.answersWithin (n + 1)).map Response.word := by
          rw [State.answersWithin_succ hstep, List.map_append, List.append_assoc]

/-- Settles O23: a command appends one response where there is room and none on a full queue. -/
theorem commandsTouchOnlyTheTailOfTheQueue : Obligations.CommandsTouchOnlyTheTailOfTheQueue := by
  intro i s t h
  rcases exec_cases i s with ⟨-, st, d, -, hpush⟩ | ⟨-, hsame⟩
  · cases hpush.symm.trans h
    exact ⟨rfl, rfl, rfl, rfl, rfl, [⟨st, d⟩], Nat.le_refl 1, s.push_pend _⟩
  · cases hsame.symm.trans h
    exact ⟨rfl, rfl, rfl, rfl, rfl, [], Nat.zero_le 1, (List.append_nil _).symm⟩

end Sys2Proof.Machine

/-! PROOF. Request words and commands stand for each other (30_encoding.md R50, R52), and the table's rows are told apart by
the opcode alone. -/

namespace Sys2Proof

@[simp] theorem Request.toWord_ofWord (w : ReqWord) : (Request.ofWord w).toWord = w := by
  have hopA : w.extractLsb' 128 3 ++ w.extractLsb' 64 64 = w.extractLsb' 64 67 :=
    BitVec.extractLsb'_append_extractLsb'_eq_extractLsb' (by decide)
  have hall : w.extractLsb' 64 67 ++ w.extractLsb' 0 64 = w.extractLsb' 0 131 :=
    BitVec.extractLsb'_append_extractLsb'_eq_extractLsb' (by decide)
  rw [Request.toWord, Request.ofWord, hopA, hall, BitVec.extractLsb'_eq_self]

theorem Request.toWord_injective : Function.Injective Request.toWord :=
  Function.LeftInverse.injective Request.ofWord_toWord

/-- Every value of `op` has a row in the table of R52, so a request is the one of the command it decodes to. -/
@[simp] theorem encodeRequest_decodeRequest (r : Request) : encodeRequest (decodeRequest r) = r := by
  obtain ⟨op, a, b⟩ := r
  have hop : op = 0#3 ∨ op = 1#3 ∨ op = 2#3 ∨ op = 3#3 ∨ op = 4#3 ∨ op = 5#3 ∨ op = 6#3 ∨ op = 7#3 := by
    revert op; decide
  rcases hop with rfl | rfl | rfl | rfl | rfl | rfl | rfl | rfl <;> simp [encodeRequest]

/-- Settles O2: both the layout of a word (R50) and the choice of the command (R52) lose nothing. -/
theorem encodeAndDecodeAreInverse : Obligations.EncodeAndDecodeAreInverse := by
  refine ⟨fun i _ => ?_, fun w => ?_⟩
  · rw [decode, encode, Request.ofWord_toWord, decodeRequest_encodeRequest]
  · rw [encode, decode, encodeRequest_decodeRequest, Request.toWord_ofWord]

/-- The `op` column of R52. -/
def Mnemonic.opcode : Mnemonic → BitVec 3
  | .U32 => 0#3
  | .U64 => 1#3
  | .KEY => 2#3
  | .CHECKED => 3#3
  | .UNCHECKED => 4#3
  | .RSVD5 => 5#3
  | .RSVD6 => 6#3
  | .RSVD7 => 7#3

theorem encodeRequest_op (i : Instr) : (encodeRequest i).op = i.mnemonic.opcode := by
  cases i <;> rfl

theorem decode_mnemonic_opcode (w : ReqWord) : (decode w).mnemonic.opcode = (Request.ofWord w).op := by
  rw [← encodeRequest_op, decode, encodeRequest_decodeRequest]

theorem Mnemonic.opcode_injective : Function.Injective Mnemonic.opcode := by
  have hleft : Function.LeftInverse (fun op => (decodeRequest ⟨op, 0#64, 0#64⟩).mnemonic) Mnemonic.opcode := by
    intro m
    cases m <;> rfl
  exact hleft.injective

/-- Every row has the mask of the three opcode bits, and as its pattern its opcode with both operands 0. -/
theorem opcodeTable_row {row : OpcodeRow} (h : row ∈ opcodeTable) :
    row.mask = 0x700000000000000000000000000000000#131 ∧
      row.pattern = (⟨row.mnemonic.opcode, 0#64, 0#64⟩ : Request).toWord := by
  revert row; decide

/-- Settles O3: masking keeps the opcode alone, and the opcode is the decoded mnemonic's. -/
theorem exactlyTheDecodedRowIsSelected : Obligations.ExactlyTheDecodedRowIsSelected := by
  intro w row hrow
  obtain ⟨hmask, hpattern⟩ := opcodeTable_row hrow
  have hmasked := Laws.Row.toWord_and_mask (Request.ofWord w)
  rw [Request.toWord_ofWord] at hmasked
  calc w &&& row.mask = row.pattern
      ↔ (⟨(Request.ofWord w).op, 0#64, 0#64⟩ : Request) = ⟨row.mnemonic.opcode, 0#64, 0#64⟩ := by
        rw [hmask, hpattern, hmasked, Request.toWord_injective.eq_iff]
    _ ↔ row.mnemonic.opcode = (decode w).mnemonic.opcode := by
        simp [decode_mnemonic_opcode, eq_comm]
    _ ↔ row.mnemonic = (decode w).mnemonic := Mnemonic.opcode_injective.eq_iff

/-- Settles O4. -/
theorem requestWordFields : Obligations.RequestWordFields := by
  intro w
  have hw := w.isLt
  rw [Request.ofWord, BitVec.extractLsb'_toNat, BitVec.extractLsb'_toNat, BitVec.extractLsb'_toNat,
    Nat.shiftRight_eq_div_pow, Nat.shiftRight_eq_div_pow]
  refine ⟨?_, rfl, rfl⟩
  omega

/-- Settles O1. -/
theorem specRequestWordsDecode : Obligations.SpecRequestWordsDecode :=
  ⟨by decide, by decide, by decide, by decide, by decide, by decide, by decide, by decide⟩

end Sys2Proof

/-! PROOF. The response word (R51, R55). -/

namespace Sys2Proof.Machine

@[simp] theorem statusOfCode_code (st : Status) : statusOfCode st.code = some st := by
  cases st <;> rfl

/-- The codes 5, 6 and 7 stand for no status (U6). -/
theorem statusOfCode_of_five_le {c : BitVec 3} (h : 5 ≤ c.toNat) : statusOfCode c = none := by
  revert c; decide

theorem Response.word_toNat (r : Response) : r.word.toNat = r.status.code.toNat * 2 ^ 64 + r.data.toNat := by
  rw [Response.word, BitVec.toNat_append, ← Nat.shiftLeft_add_eq_or_of_lt r.data.isLt, Nat.shiftLeft_eq]

@[simp] theorem decodeResponse_word (r : Response) : decodeResponse r.word = some r := by
  have hstatus : r.word.extractLsb' 64 3 = r.status.code := BitVec.extractLsb'_append_eq_left
  have hdata : r.word.extractLsb' 0 64 = r.data := BitVec.extractLsb'_append_eq_right
  rw [decodeResponse, hstatus, hdata, statusOfCode_code, Option.map_some]

/-- Settles O5. -/
theorem responseWordLayout : Obligations.ResponseWordLayout := by
  refine ⟨rfl, rfl, rfl, rfl, rfl, fun r => ⟨r.word_toNat, decodeResponse_word r⟩, fun w hw => ?_⟩
  have hlt := w.isLt
  have hcode : 5 ≤ (w.extractLsb' 64 3).toNat := by
    rw [BitVec.extractLsb'_toNat, Nat.shiftRight_eq_div_pow]
    omega
  rw [decodeResponse, statusOfCode_of_five_le hcode, Option.map_none]

end Sys2Proof.Machine

/-! PROOF. What every command and every edge answers (R53, R54, R56, R126). -/

namespace Sys2Proof.Machine

/-- Settles O21: the response appended is the command's answer, and an answer obeys R56. -/
theorem errorResponsesCarryZero : Obligations.ErrorResponsesCarryZero := by
  intro i s r h
  rcases Nat.lt_or_ge s.pend.length s.config.depth with hroom | hfull
  · have hpush : s.push (answer s.config i) = s.push r := Host.Outcome.next.inj ((exec_of_room i hroom).symm.trans h)
    have hr : answer s.config i = r := by simpa using congrArg State.pend hpush
    exact hr ▸ answer_lawful s.config i
  · have hsame : s = s.push r := Host.Outcome.next.inj ((exec_of_full i hfull).symm.trans h)
    simpa using congrArg State.pend hsame

/-- Settles O18: the meaning of each of these commands does not name the operand it ignores. -/
theorem ignoredOperandsDoNotMatter : Obligations.IgnoredOperandsDoNotMatter :=
  fun _ _ _ _ _ _ => ⟨rfl, rfl, rfl, rfl, rfl, rfl⟩

/-- Settles O33: an edge is a reset, or an accept followed by the close of the edge, and both answer a next state. -/
theorem stepNeverStops : Obligations.StepNeverStops := by
  intro s
  cases hr : s.edge.rst with
  | true => exact ⟨s.resetEdge, step_of_rst hr⟩
  | false => exact ⟨s.closeEdge s.afterAccepts, step_of_no_rst hr⟩

end Sys2Proof.Machine

/-! PROOF. The lines of a listing (R58): each part, as it is written, is read back and the rest of the line handed on; then
whole request and response lines. -/

namespace Sys2Proof.Machine

section pieces
variable (cs : List Char)

@[simp] theorem expectChars_append (wanted : List Char) : expectChars wanted (wanted ++ cs) = some cs := by
  induction wanted with
  | nil => rfl
  | cons w ws ih => rw [List.cons_append, expectChars, if_pos rfl, ih]

theorem hexValue_hexDigits {d : Nat} (h : d < 16) : hexValue (hexDigits.getD d '0') = some d := by
  revert d; decide

/-- Reading `n` digits shifts what was read so far by `n` places and puts the low `n` digits of the number there. -/
theorem readHex_hexChars (n soFar v : Nat) :
    readHex n soFar (hexChars n v ++ cs) = some (soFar * 16 ^ n + v % 16 ^ n, cs) := by
  induction n generalizing soFar with
  | zero => simp [readHex, hexChars, Nat.mod_one]
  | succ n ih =>
    have hdigit : hexValue (hexDigits.getD (v / 16 ^ n % 16) '0') = some (v / 16 ^ n % 16) :=
      hexValue_hexDigits (Nat.mod_lt _ (by decide))
    have hvalue : (16 * soFar + v / 16 ^ n % 16) * 16 ^ n + v % 16 ^ n =
        soFar * 16 ^ (n + 1) + v % 16 ^ (n + 1) := by
      rw [Nat.mod_pow_succ]
      ring
    simp only [hexChars, List.cons_append, readHex, hdigit, ih, hvalue]

theorem readHex_hexChars_word (v : Word) : readHex 16 0 (hexChars 16 v.toNat ++ cs) = some (v.toNat, cs) := by
  have hv : v.toNat % 16 ^ 16 = v.toNat := Nat.mod_eq_of_lt v.isLt
  rw [readHex_hexChars, hv, Nat.zero_mul, Nat.zero_add]

@[simp] theorem readOperand_operandChars (v : Word) : readOperand (operandChars v ++ cs) = some (v, cs) := by
  simp only [readOperand, operandChars, List.append_assoc, expectChars_append, readHex_hexChars_word,
    BitVec.ofNat_toNat, BitVec.setWidth_eq]

@[simp] theorem readData_operandChars (v : Word) : readData (operandChars v ++ cs) = some (v, cs) := by
  simp only [readData, operandChars, List.append_assoc, expectChars_append, Option.getD_some,
    readHex_hexChars_word, BitVec.ofNat_toNat, BitVec.setWidth_eq]

/-- A line may end with the comment it is written with, whatever number its digits are. -/
@[simp] theorem endsLine_comment (comment : List Char) (n v : Nat) :
    endsLine comment n (comment ++ hexChars n v) = true := by
  have hread := readHex_hexChars [] n 0 v
  rw [List.append_nil] at hread
  simp only [endsLine, expectChars_append, hread, Bool.or_true]

end pieces

section names
variable (cs : List Char)

theorem space_not_mem_mnemonicChars (m : Mnemonic) : ' ' ∉ mnemonicChars m := by
  cases m <;> decide

theorem space_not_mem_statusChars (st : Status) : ' ' ∉ statusChars st := by
  cases st <;> decide

theorem find_mnemonicChars (m : Mnemonic) :
    (allMnemonics.find? fun m' => mnemonicChars m' == mnemonicChars m) = some m := by
  cases m <;> decide

theorem find_statusChars (st : Status) :
    (allStatuses.find? fun st' => statusChars st' == statusChars st) = some st := by
  cases st <;> decide

variable {name : List Char} (hname : ' ' ∉ name)
include hname

theorem bne_space_of_mem_name : ∀ ch ∈ name, (ch != ' ') = true :=
  fun _ hch => bne_iff_ne.2 (ne_of_mem_of_not_mem hch hname)

theorem takeWhile_name : (name ++ ([' '] ++ cs)).takeWhile (· != ' ') = name := by
  rw [List.takeWhile_append_of_pos (bne_space_of_mem_name hname)]
  simp

theorem dropWhile_name : (name ++ ([' '] ++ cs)).dropWhile (· != ' ') = [' '] ++ cs := by
  rw [List.dropWhile_append_of_pos (bne_space_of_mem_name hname)]
  simp

end names

/-- The second operand of a command as its request line writes it: left out, or with its value. -/
def listedSecond (i : Instr) : Option Word :=
  if writesSecond (encodeRequest i) i.mnemonic then some (encodeRequest i).b else none

/-- The text of a second operand, after the first. -/
def secondChars : Option Word → List Char
  | none => []
  | some b => [',', ' '] ++ operandChars b

theorem requestLine_eq (i : Instr) :
    requestLine i = ['>', ' '] ++ (mnemonicChars i.mnemonic ++ ([' '] ++ (operandChars (encodeRequest i).a ++
      (secondChars (listedSecond i) ++ (reqCommentChars ++ hexChars 33 (encode i).toNat))))) := by
  have hsecond : secondChars (listedSecond i) = if writesSecond (encodeRequest i) i.mnemonic then
      [',', ' '] ++ operandChars (encodeRequest i).b else [] := by
    rw [listedSecond]
    split <;> rfl
  rw [requestLine, hsecond]
  simp only [List.append_assoc]

theorem readSecond_secondChars (b : Option Word) (cs : List Char) :
    readSecond (secondChars b ++ (reqCommentChars ++ cs)) = some (b, reqCommentChars ++ cs) := by
  cases b with
  | none => rfl
  | some b => simp only [secondChars, List.append_assoc, readSecond, expectChars_append, readOperand_operandChars]

/-- An operand that is left out is one whose value is 0. -/
theorem ofListing_listedSecond (i : Instr) : ofListing i.mnemonic (encodeRequest i).a (listedSecond i) = some i := by
  have homitted (b : Word) : (if b != 0#64 then some b else none).getD 0#64 = b := by
    by_cases h : b = 0#64 <;> simp [h]
  cases i with
  | u32 key index => rfl
  | u64 key index => rfl
  | key seed b => exact congrArg (fun b => some (Instr.key seed b)) (homitted b)
  | checked v b => exact congrArg (fun b => some (Instr.checked v b)) (homitted b)
  | unchecked v b => exact congrArg (fun b => some (Instr.unchecked v b)) (homitted b)
  | rsvd5 a b => rfl
  | rsvd6 a b => rfl
  | rsvd7 a b => rfl

theorem readRequestLine_requestLine (i : Instr) : readRequestLine (requestLine i) = some i := by
  rw [requestLine_eq, readRequestLine]
  simp only [expectChars_append, takeWhile_name _ (space_not_mem_mnemonicChars _), find_mnemonicChars,
    dropWhile_name _ (space_not_mem_mnemonicChars _), readOperand_operandChars, readSecond_secondChars, endsLine_comment,
    if_true, ofListing_listedSecond]

theorem readResponseLine_responseLine (r : Response) : readResponseLine (responseLine r) = some r := by
  rw [responseLine, readResponseLine]
  simp only [List.append_assoc, expectChars_append, takeWhile_name _ (space_not_mem_statusChars _), find_statusChars,
    dropWhile_name _ (space_not_mem_statusChars _), readData_operandChars, endsLine_comment, if_true]

/-- Settles O27: each part of a line is read as what it was written for. -/
theorem listingLinesReadBack : Obligations.ListingLinesReadBack :=
  ⟨readRequestLine_requestLine, readResponseLine_responseLine⟩

end Sys2Proof.Machine

/-! PROOF. The bits of a word: the legal parameters in numbers (00_scope.md R9), the lowest bit as a parity, and the count of
set bits as the size of the set of their numbers (R12). -/

namespace Sys2Proof

theorem Config.bounds_of_wf {c : Config} (h : c.wf = true) : 1 ≤ c.popMin ∧ c.popMin ≤ c.popMax ∧ c.popMax ≤ 64 := by
  simp only [Config.wf, Config.popMinPositive, Config.boundsOrdered, Config.popMaxInRange, Bool.and_eq_true,
    decide_eq_true_eq] at h
  omega

theorem Config.multipliers_odd_of_wf {c : Config} (h : c.wf = true) :
    c.deriveM1.getLsbD 0 = true ∧ c.deriveM2.getLsbD 0 = true := by
  simp only [Config.wf, Config.m1Odd, Config.m2Odd, Bool.and_eq_true] at h
  obtain ⟨⟨⟨-, hm1⟩, hm2⟩, -⟩ := h
  exact ⟨hm1, hm2⟩

end Sys2Proof

namespace Sys2Proof.Machine

open Sys2Proof.Claims

section bits
variable {k : Word} {i : Nat}

theorem getLsbD_zero_eq_true_iff (v : Word) : v.getLsbD 0 = true ↔ v.toNat % 2 = 1 := by
  rw [← BitVec.testBit_toNat, Nat.testBit_zero, decide_eq_true_iff]

theorem getLsbD_zero_eq_false_iff (v : Word) : v.getLsbD 0 = false ↔ v.toNat % 2 = 0 := by
  rw [← Bool.not_eq_true, getLsbD_zero_eq_true_iff, ← ne_eq, Nat.mod_two_ne_one]

/-- The numbers of the bits that are 1: `popcount64` is its size. -/
def setBits (k : Word) : Finset Nat := {i ∈ Finset.range 64 | k.getLsbD i = true}

@[simp] theorem mem_setBits : i ∈ setBits k ↔ k.getLsbD i = true := by
  rw [setBits, Finset.mem_filter, Finset.mem_range, and_iff_right_of_imp BitVec.lt_of_getLsbD]

theorem popcount64_eq_card (k : Word) : popcount64 k = (setBits k).card :=
  (List.countP_eq_length_filter).trans (congrArg List.length (List.filter_congr fun _ _ => by simp))

theorem popcount64_pos_iff : 0 < popcount64 k ↔ ∃ i, k.getLsbD i = true := by
  simp only [popcount64_eq_card, Finset.card_pos, Finset.Nonempty, mem_setBits]

theorem nPop_toNat (k : Word) : nPop k.toNat = popcount64 k := by
  have hdigit (i : Nat) : k.toNat / 2 ^ i % 2 = if k.getLsbD i = true then 1 else 0 := by
    rw [← Nat.toNat_testBit, BitVec.testBit_toNat]
    cases k.getLsbD i <;> rfl
  calc nPop k.toNat = ∑ i ∈ Finset.range 64, if k.getLsbD i = true then 1 else 0 := by
        simp only [nPop, hdigit]
        rfl
    _ = popcount64 k := by rw [popcount64_eq_card, setBits, Finset.card_filter]

theorem admissible_iff_nAdmissible (c : Config) (v : Word) : admissible c v = true ↔ nAdmissible c v.toNat := by
  rw [admissible_iff, nAdmissible, nPop_toNat, getLsbD_zero_eq_true_iff]

end bits

end Sys2Proof.Machine

/-! PROOF. The commands CHECKED and UNCHECKED (40_keydomain.md R70 to R73). -/

namespace Sys2Proof.Machine

open Sys2Proof.Claims

section checked
variable {v b : Word} {s : State}

theorem classify_eq_none_iff {c : Config} : classify c v = none ↔ admissible c v = true := by
  refine ⟨fun h => ?_, classify_of_admissible⟩
  rw [admissible_iff]
  cases ho : v.getLsbD 0 with
  | false => simp [classify_of_even ho] at h
  | true =>
    refine ⟨rfl, ?_⟩
    by_contra hcount
    by_cases hl : popcount64 v < c.popMin
    · simp [classify_of_low ho hl] at h
    · simp [classify_of_high (c := c) ho (by omega) (by omega)] at h

theorem exec_checked_of_flaw {flaw : KeyFlaw} (hroom : s.pend.length < s.config.depth)
    (h : classify s.config v = some flaw) :
    exec (.checked v b) s = .next (s.push ⟨errorStatus (.invalidKey flaw), 0#64⟩) := by
  rw [exec, execChecked, h]
  exact respond_of_room ((State.hasRoom_iff s).2 hroom) _ _

theorem exec_checked_of_admissible (hroom : s.pend.length < s.config.depth) (h : nAdmissible s.config v.toNat) :
    exec (.checked v b) s = .next (s.push ⟨.ok, v⟩) := by
  rw [exec, execChecked, classify_of_admissible ((admissible_iff_nAdmissible s.config v).2 h)]
  exact respond_of_room ((State.hasRoom_iff s).2 hroom) _ _

end checked

/-- Settles O11: each clause is one line of CLASSIFY (R71). -/
theorem checkedReportsItsVerdict : Obligations.CheckedReportsItsVerdict := by
  intro v b s hroom
  rw [← getLsbD_zero_eq_false_iff, ← getLsbD_zero_eq_true_iff, nPop_toNat]
  exact ⟨decodeRequest_op3 v b, exec_checked_of_admissible hroom,
    fun he => exec_checked_of_flaw hroom (classify_of_even he),
    fun ho hl => exec_checked_of_flaw hroom (classify_of_low ho hl),
    fun ho hl hh => exec_checked_of_flaw hroom (classify_of_high ho hl hh)⟩

/-- Settles O12: a value that CLASSIFY finds no flaw in is admissible, and a flaw is answered with another status than OK. -/
theorem checkedSucceedsExactlyOnAdmissible : Obligations.CheckedSucceedsExactlyOnAdmissible := by
  refine ⟨admissible_iff_nAdmissible, fun v b s hroom =>
    ⟨fun ⟨d, hd⟩ => ?_, fun h => ⟨v, exec_checked_of_admissible hroom h⟩⟩⟩
  rw [← admissible_iff_nAdmissible, ← classify_eq_none_iff]
  cases hflaw : classify s.config v with
  | none => rfl
  | some flaw =>
    have hpush := Host.Outcome.next.inj (hd.symm.trans (exec_checked_of_flaw hroom hflaw))
    have hresp := List.append_cancel_left (congrArg State.pend hpush)
    simp only [List.cons.injEq, Response.mk.injEq] at hresp
    obtain ⟨⟨hstatus, -⟩, -⟩ := hresp
    exact absurd hstatus.symm (errorStatus_ne_ok _)

/-- Settles O13: UNCHECKED is one `respond` with the value. -/
theorem uncheckedReturnsTheValue : Obligations.UncheckedReturnsTheValue :=
  fun v b s hroom => ⟨decodeRequest_op4 v b, respond_of_room ((State.hasRoom_iff s).2 hroom) .ok v⟩

end Sys2Proof.Machine

/-! PROOF. The reference SCRAMBLE (40_keydomain.md R76): its value in numbers, and that each of its lines can be undone. -/

namespace Sys2Proof.Machine

open Sys2Proof.Claims

/-- A line of R76: xor with the value itself shifted right by `n`. -/
def xorShift (n : Nat) (z : Word) : Word := z ^^^ shr z n

theorem scrambleReference_eq (c : Config) (s : Word) :
    scrambleReference c s =
      xorShift 31 (mul64 (xorShift 27 (mul64 (xorShift 30 (add64 s c.deriveGamma)) c.deriveM1)) c.deriveM2) := rfl

theorem scramble_of_reference {c : Config} (h : c.scramble = .reference) : scramble c = scrambleReference c := by
  funext s
  rw [scramble, h]

@[simp] theorem xorShift_toNat (n : Nat) (z : Word) : (xorShift n z).toNat = z.toNat ^^^ z.toNat / 2 ^ n := by
  rw [xorShift, BitVec.toNat_xor, shr_toNat]

theorem xorShift_xor (n : Nat) (x y : Word) : xorShift n (x ^^^ y) = xorShift n x ^^^ xorShift n y := by
  simp only [xorShift, shr, BitVec.ushiftRight_xor_distrib]
  ac_rfl

/-- Only 0 equals its own right shift by at least one place. -/
theorem eq_zero_of_xorShift_eq_zero {n : Nat} {d : Word} (hn : n ≠ 0) (h : xorShift n d = 0#64) : d = 0#64 := by
  have hfix : d.toNat / 2 ^ n = d.toNat := by
    rw [← shr_toNat, ← BitVec.xor_eq_zero_iff.1 h]
  apply BitVec.eq_of_toNat_eq
  simpa [Nat.div_eq_self, hn] using hfix

theorem xorShift_injective {n : Nat} (hn : n ≠ 0) : Function.Injective (xorShift n) := fun x y hxy =>
  BitVec.xor_eq_zero_iff.1 (eq_zero_of_xorShift_eq_zero hn (by rw [xorShift_xor, hxy, BitVec.xor_self]))

/-- An odd number has no factor in common with 2^64. -/
theorem mul64_injective_of_odd {m : Word} (hm : m.getLsbD 0 = true) : Function.Injective (mul64 · m) := by
  intro x y hxy
  have hcoprime : Nat.gcd (2 ^ 64) m.toNat = 1 :=
    (Nat.coprime_two_left.2 (Nat.odd_iff.2 ((getLsbD_zero_eq_true_iff m).1 hm))).pow_left 64
  have hmod : x.toNat * m.toNat ≡ y.toNat * m.toNat [MOD 2 ^ 64] := by
    simpa only [Nat.ModEq, mul64_toNat] using congrArg BitVec.toNat hxy
  have hcancel := Nat.ModEq.cancel_right_of_coprime hcoprime hmod
  exact BitVec.eq_of_toNat_eq (hcancel.eq_of_lt_of_lt x.isLt y.isLt)

theorem scrambleReference_injective {c : Config} (h1 : c.deriveM1.getLsbD 0 = true) (h2 : c.deriveM2.getLsbD 0 = true) :
    Function.Injective (scrambleReference c) := by
  intro x y hxy
  rw [scrambleReference_eq, scrambleReference_eq] at hxy
  have h27 := mul64_injective_of_odd h2 (xorShift_injective (by decide) hxy)
  have h30 := mul64_injective_of_odd h1 (xorShift_injective (by decide) h27)
  exact add_right_cancel (xorShift_injective (by decide) h30)

/-- Settles O15, line by line. -/
theorem referenceScrambleArithmetic : Obligations.ReferenceScrambleArithmetic := by
  refine ⟨fun c s h => ?_, rfl, rfl, rfl⟩
  rw [scramble_of_reference h, scrambleReference_eq]
  simp only [xorShift_toNat, mul64_toNat, add64_toNat, nScramble, nMul, nAdd]

/-- Settles O16: each line of R76 is injective, and an injective map of a finite type to itself is a bijection. -/
theorem referenceScrambleIsABijection : Obligations.ReferenceScrambleIsABijection := by
  intro c hc h
  obtain ⟨h1, h2⟩ := Config.multipliers_odd_of_wf hc
  rw [scramble_of_reference h, ← Finite.injective_iff_bijective]
  exact scrambleReference_injective h1 h2

end Sys2Proof.Machine

/-! PROOF. The reference ADJUST (40_keydomain.md R77, R78): what one pass of each loop does to the bits and to their count,
then what the loops do, then what ADJUST and KEY do. -/

namespace Sys2Proof.Machine

section passes
variable {k : Word} {i : Nat}

/-- Adding 1 carries into bit `i` exactly when all lower bits are 1. -/
theorem getLsbD_add_one (k : Word) (hi : i < 64) :
    (add64 k 1#64).getLsbD i = (k.getLsbD i ^^ decide (∀ m < i, k.getLsbD m = true)) := by
  rw [add64, BitVec.getLsbD_add hi]
  cases i with
  | zero => simp
  | succ n => simp [BitVec.carry_succ_one]

/-- The bits after one pass of the first loop: those from before and the one with no clear bit below it. -/
theorem getLsbD_setLowestClear_iff :
    (setLowestClear k).getLsbD i = true ↔ i < 64 ∧ (k.getLsbD i = true ∨ ∀ m < i, k.getLsbD m = true) := by
  rw [setLowestClear, BitVec.getLsbD_or]
  by_cases hi : i < 64
  · rw [getLsbD_add_one k hi]
    cases k.getLsbD i <;> simp [hi]
  · simp [hi, BitVec.getLsbD_of_ge _ i (not_lt.1 hi)]

theorem exists_lowest_clear (h : popcount64 k < 64) :
    ∃ j < 64, k.getLsbD j = false ∧ ∀ m < j, k.getLsbD m = true := by
  have hclear : ∃ j, k.getLsbD j = false := ⟨64, BitVec.getLsbD_of_ge k 64 le_rfl⟩
  have hlow (m) (hm : m < Nat.find hclear) : k.getLsbD m = true := by
    simpa using Nat.find_min hclear hm
  refine ⟨Nat.find hclear, ?_, Nat.find_spec hclear, hlow⟩
  by_contra hall
  have hsub : Finset.range 64 ⊆ setBits k := fun m hm =>
    mem_setBits.2 (hlow m ((Finset.mem_range.1 hm).trans_le (not_lt.1 hall)))
  have hcard := Finset.card_le_card hsub
  rw [Finset.card_range, ← popcount64_eq_card] at hcard
  omega

theorem popcount64_setLowestClear (h : popcount64 k < 64) : popcount64 (setLowestClear k) = popcount64 k + 1 := by
  obtain ⟨j, hj, hclear, hlow⟩ := exists_lowest_clear h
  have hbits : setBits (setLowestClear k) = insert j (setBits k) := by
    ext i
    rw [Finset.mem_insert, mem_setBits, mem_setBits, getLsbD_setLowestClear_iff]
    constructor
    · rintro ⟨-, hi | hall⟩
      · exact .inr hi
      · rcases lt_trichotomy i j with hij | hij | hij
        · exact .inr (hlow i hij)
        · exact .inl hij
        · exact absurd (hall j hij) (by simp [hclear])
    · rintro (rfl | hi)
      · exact ⟨hj, .inr hlow⟩
      · exact ⟨BitVec.lt_of_getLsbD hi, .inl hi⟩
  rw [popcount64_eq_card, hbits, Finset.card_insert_of_notMem (by simp [hclear]), popcount64_eq_card]

theorem getLsbD_clearHighestSet_iff (k : Word) (i : Nat) :
    (clearHighestSet k).getLsbD i = true ↔ k.getLsbD i = true ∧ i ≠ highestSet k := by
  rw [clearHighestSet, BitVec.getLsbD_and, BitVec.getLsbD_not, BitVec.getLsbD_ofNat, Nat.testBit_two_pow]
  by_cases hi : i < 64
  · simp [hi, eq_comm (a := i)]
  · simp [hi, BitVec.getLsbD_of_ge _ i (not_lt.1 hi)]

theorem getLsbD_highestSet (h : k ≠ 0#64) : k.getLsbD (highestSet k) = true := by
  rw [← BitVec.testBit_toNat]
  exact Nat.testBit_log2 fun hz => h (BitVec.eq_of_toNat_eq hz)

theorem getLsbD_of_highestSet_lt (h : highestSet k < i) : k.getLsbD i = false := by
  rw [← BitVec.testBit_toNat]
  exact Nat.testBit_lt_two_pow (Nat.lt_log2_self.trans_le (Nat.pow_le_pow_right (by decide) h))

theorem popcount64_clearHighestSet (h : 0 < popcount64 k) : popcount64 (clearHighestSet k) + 1 = popcount64 k := by
  have hne : k ≠ 0#64 := by
    rintro rfl
    simp [popcount64_pos_iff] at h
  have hbits : setBits (clearHighestSet k) = (setBits k).erase (highestSet k) := by
    ext i
    rw [Finset.mem_erase, mem_setBits, mem_setBits, getLsbD_clearHighestSet_iff, and_comm]
  rw [popcount64_eq_card, hbits, Finset.card_erase_add_one (mem_setBits.2 (getLsbD_highestSet hne)), popcount64_eq_card]

end passes

section loops
variable {c : Config} {fuel : Nat} {k r : Word}

/-- `r` is `k` with some of its lowest clear bits set: it keeps the bits of `k`, and below an added bit every bit is set. -/
structure FilledFrom (k r : Word) : Prop where
  keeps : ∀ i, k.getLsbD i = true → r.getLsbD i = true
  lowest : ∀ i j, i < j → r.getLsbD j = true → k.getLsbD j = false → r.getLsbD i = true

/-- `r` is `k` with some of its highest set bits cleared: it adds no bit, and above a removed bit every bit is clear. -/
structure ThinnedFrom (k r : Word) : Prop where
  addsNone : ∀ i, r.getLsbD i = true → k.getLsbD i = true
  highest : ∀ i j, j < i → k.getLsbD j = true → r.getLsbD j = false → r.getLsbD i = false

theorem FilledFrom.refl (k : Word) : FilledFrom k k where
  keeps _ h := h
  lowest i j _ hj hj' := by simp [hj] at hj'

theorem ThinnedFrom.refl (k : Word) : ThinnedFrom k k where
  addsNone _ h := h
  highest i j _ hj hj' := by simp [hj] at hj'

theorem FilledFrom.of_setLowestClear (h : FilledFrom (setLowestClear k) r) : FilledFrom k r := by
  have hkeeps (i) (hi : k.getLsbD i = true) : r.getLsbD i = true :=
    h.keeps i (getLsbD_setLowestClear_iff.2 ⟨BitVec.lt_of_getLsbD hi, .inl hi⟩)
  refine ⟨hkeeps, fun i j hij hr hk => ?_⟩
  cases hj : (setLowestClear k).getLsbD j with
  | false => exact h.lowest i j hij hr hj
  | true =>
    obtain ⟨-, hold | hlow⟩ := getLsbD_setLowestClear_iff.1 hj
    · simp [hk] at hold
    · exact hkeeps i (hlow i hij)

theorem ThinnedFrom.of_clearHighestSet (h : ThinnedFrom (clearHighestSet k) r) : ThinnedFrom k r := by
  have haddsNone (i) (hi : r.getLsbD i = true) : k.getLsbD i = true :=
    (getLsbD_clearHighestSet_iff k i).1 (h.addsNone i hi) |>.1
  refine ⟨haddsNone, fun i j hij hk hr => ?_⟩
  by_cases hj : j = highestSet k
  · have hki : k.getLsbD i = false := getLsbD_of_highestSet_lt (hj ▸ hij)
    exact Bool.eq_false_of_not_eq_true fun hri => by simp [haddsNone i hri] at hki
  · exact h.highest i j hij ((getLsbD_clearHighestSet_iff k j).2 ⟨hk, hj⟩) hr

theorem fillSparse_of_popMin_le (h : c.popMin ≤ popcount64 k) : fillSparse c fuel k = k := by
  cases fuel with
  | zero => rfl
  | succ n => rw [fillSparse, if_neg (not_lt.2 h)]

theorem thinDense_of_le_popMax (h : popcount64 k ≤ c.popMax) : thinDense c fuel k = k := by
  cases fuel with
  | zero => rfl
  | succ n => rw [thinDense, if_neg (not_lt.2 h)]

theorem filledFrom_fillSparse (c : Config) (fuel : Nat) (k : Word) : FilledFrom k (fillSparse c fuel k) := by
  induction fuel generalizing k with
  | zero => exact .refl k
  | succ n ih =>
    rw [fillSparse]
    split
    · exact (ih _).of_setLowestClear
    · exact .refl k

theorem thinnedFrom_thinDense (c : Config) (fuel : Nat) (k : Word) : ThinnedFrom k (thinDense c fuel k) := by
  induction fuel generalizing k with
  | zero => exact .refl k
  | succ n ih =>
    rw [thinDense]
    split
    · exact (ih _).of_clearHighestSet
    · exact .refl k

/-- The first loop ends at exactly `POP_MIN` where it runs and has enough passes (R78). -/
theorem popcount64_fillSparse (hmin : c.popMin ≤ 64) (hfuel : c.popMin ≤ popcount64 k + fuel) :
    popcount64 (fillSparse c fuel k) = max (popcount64 k) c.popMin := by
  induction fuel generalizing k with
  | zero => exact (max_eq_left hfuel).symm
  | succ n ih =>
    rw [fillSparse]
    split
    case isTrue hlt =>
      have hstep := popcount64_setLowestClear (hlt.trans_le hmin)
      rw [ih (by omega), hstep]
      omega
    case isFalse hle =>
      exact (max_eq_left (not_lt.1 hle)).symm

/-- The second loop ends at exactly `POP_MAX` where it runs and has enough passes (R78). -/
theorem popcount64_thinDense (hfuel : popcount64 k ≤ c.popMax + fuel) :
    popcount64 (thinDense c fuel k) = min (popcount64 k) c.popMax := by
  induction fuel generalizing k with
  | zero => exact (min_eq_left hfuel).symm
  | succ n ih =>
    rw [thinDense]
    split
    case isTrue hgt =>
      have hstep := popcount64_clearHighestSet (Nat.zero_lt_of_lt hgt)
      rw [ih (by omega)]
      omega
    case isFalse hle =>
      exact (min_eq_left (not_lt.1 hle)).symm

/-- Bit 0 is the last bit that thinning takes. -/
theorem ThinnedFrom.getLsbD_zero (h : ThinnedFrom k r) (hodd : k.getLsbD 0 = true) (hpos : 0 < popcount64 r) :
    r.getLsbD 0 = true := by
  obtain ⟨i, hi⟩ := popcount64_pos_iff.1 hpos
  by_contra h0
  rcases i.eq_zero_or_pos with rfl | hlt
  · exact h0 hi
  · simp [h.highest i 0 hlt hodd (Bool.eq_false_of_not_eq_true h0)] at hi

end loops

section adjust
variable {c : Config}

theorem adjustReference_admissible (hc : c.wf = true) (m : Word) : admissible c (adjustReference c m) = true := by
  obtain ⟨hmin, hord, hmax⟩ := Config.bounds_of_wf hc
  have hfill : popcount64 (fillSparse c 64 (m ||| 1#64)) = max (popcount64 (m ||| 1#64)) c.popMin :=
    popcount64_fillSparse (by omega) (by omega)
  have hcount : popcount64 (adjustReference c m) = min (max (popcount64 (m ||| 1#64)) c.popMin) c.popMax := by
    have hle := popcount64_le (fillSparse c 64 (m ||| 1#64))
    rw [adjustReference, popcount64_thinDense (by omega), hfill]
  have hodd : (fillSparse c 64 (m ||| 1#64)).getLsbD 0 = true :=
    (filledFrom_fillSparse c 64 _).keeps 0 (by simp)
  refine (admissible_iff c _).2 ⟨?_, by omega, by omega⟩
  exact (thinnedFrom_thinDense c 64 _).getLsbD_zero hodd (by rw [← adjustReference]; omega)

/-- R9's demand on any build: the result of `ADJUST` is admissible for every input. -/
theorem adjust_admissible (hc : c.wf = true) (m : Word) : admissible c (adjust c m) = true := by
  rw [adjust]
  split
  · exact adjustReference_admissible hc m
  · split
    · assumption
    · exact adjustReference_admissible hc m

theorem adjust_of_reference (h : c.adjust = .reference) (m : Word) : adjust c m = adjustReference c m := by
  rw [adjust, h]

end adjust

/-- Settles O17: where `k0` is not too dense the first loop alone may run, where it is not too sparse the second. -/
theorem referenceAdjustNudgesTheCount : Obligations.ReferenceAdjustNudgesTheCount := by
  intro c m hc href
  obtain ⟨hmin, hord, hmax⟩ := Config.bounds_of_wf hc
  rw [adjust_of_reference href, adjustReference, nPop_toNat, nPop_toNat]
  generalize m ||| 1#64 = k0
  refine ⟨fun hl hh => ?_, fun hsparse => ?_, fun hdense => ?_⟩
  · rw [fillSparse_of_popMin_le hl, thinDense_of_le_popMax hh]
  · have hcount : popcount64 (fillSparse c 64 k0) = c.popMin :=
      (popcount64_fillSparse (by omega) (by omega)).trans (max_eq_right hsparse.le)
    rw [thinDense_of_le_popMax (hcount.trans_le hord)]
    exact ⟨hcount, (filledFrom_fillSparse c 64 k0).keeps, (filledFrom_fillSparse c 64 k0).lowest⟩
  · have hle := popcount64_le k0
    rw [fillSparse_of_popMin_le (hord.trans hdense.le)]
    exact ⟨(popcount64_thinDense (by omega)).trans (min_eq_right hdense.le),
      (thinnedFrom_thinDense c 64 k0).addsNone, (thinnedFrom_thinDense c 64 k0).highest⟩

/-- Settles O14: the key is admissible on every legal build, and CHECKED gives an admissible value back. -/
theorem keyAppendsAnAdmissibleKey : Obligations.KeyAppendsAnAdmissibleKey := by
  intro seed b s hc hroom
  have hkey := (admissible_iff_nAdmissible s.config _).1 (adjust_admissible hc (scramble s.config seed))
  exact ⟨decodeRequest_op2 seed b, respond_of_room ((State.hasRoom_iff s).2 hroom) .ok (derive s.config seed), hkey,
    exec_checked_of_admissible hroom hkey⟩


end Sys2Proof.Machine

/-! PROOF. The set-up and the rounds in numbers (41_u32.md R90, R91), and what both round functions make of the key 0 (R95,
42_u64.md R105). -/

namespace Sys2Proof.Machine

open Sys2Proof.Claims

section rounds
variable (key index : Word) (m : Mixing) (x : Word) (r : Nat)

theorem setUp_y_toNat : (setUp key index).y.toNat = nY key.toNat index.toNat := mul64_toNat index key

theorem setUp_z_toNat : (setUp key index).z.toNat = nZ key.toNat index.toNat := by
  rw [nZ, ← setUp_y_toNat]
  exact add64_toNat _ key

theorem sqAdd_toNat : (sqAdd m x r).toNat = nSquareAdd x.toNat (mixingTerm m r).toNat := by
  rw [sqAdd, add64_toNat, sq64_toNat, nSquareAdd, nAdd, nMul]

theorem fullRound_toNat : (fullRound m x r).toNat = nRound x.toNat (mixingTerm m r).toNat := by
  rw [fullRound, swap32_toNat, sqAdd_toNat, nRound, nSwap]

/-- `x3`: the terms of rounds 1 to 3 are `y`, `z`, `y`. -/
theorem afterRound3_setUp_toNat : (afterRound3 (setUp key index)).toNat = nX3 key.toNat index.toNat := by
  rw [afterRound3, fullRound_toNat, fullRound_toNat, fullRound_toNat, mixingTerm_odd (r := 1) _ rfl,
    mixingTerm_even (r := 2) _ rfl, mixingTerm_odd (r := 3) _ rfl, setUp_y_toNat, setUp_z_toNat, nX3]

/-- The U32 word: the term of round 4 is `z`. -/
theorem drawU32_toNat : (drawU32 key index).toNat = nU32 key.toNat index.toNat := by
  rw [drawU32, hi32_toNat, sqAdd_toNat, afterRound3_setUp_toNat, mixingTerm_even (r := 4) _ rfl, setUp_z_toNat, nU32]

theorem zext64_drawU32 : zext64 (drawU32 key index) = BitVec.ofNat 64 (nU32 key.toNat index.toNat) := by
  rw [← drawU32_toNat, ← zext64_toNat, BitVec.ofNat_toNat, BitVec.setWidth_eq]

end rounds

section zeroKey
variable (r : Nat) (index : Word)

/-- With the key 0 both mixing constants are 0. -/
theorem setUp_zero_key : setUp 0#64 index = ⟨0#64, 0#64⟩ := by
  simp [setUp, mul64, add64]

/-- Where both mixing constants are 0, a half round takes 0 to 0; a full one, its swap, then does too. -/
@[simp] theorem sqAdd_zero : sqAdd ⟨0#64, 0#64⟩ 0#64 r = 0#64 := by
  simp [sqAdd, mixingTerm, sq64, mul64, add64]

@[simp] theorem swap32_zero : swap32 0#64 = 0#64 := rfl

@[simp] theorem fullRound_zero : fullRound ⟨0#64, 0#64⟩ 0#64 r = 0#64 := by
  rw [fullRound, sqAdd_zero, swap32_zero]

@[simp] theorem afterRound3_zero : afterRound3 ⟨0#64, 0#64⟩ = 0#64 := by
  simp only [afterRound3, fullRound_zero]

theorem drawU32_zero_key : drawU32 0#64 index = 0#32 := by
  rw [drawU32, setUp_zero_key, afterRound3_zero, sqAdd_zero]
  rfl

@[simp] theorem finalHigh_zero : finalHigh ⟨0#64, 0#64⟩ 0#64 = 0#64 := by
  rw [finalHigh, sqAdd_zero]
  rfl

/-- The fourth round gives 0, and either fifth round is then the xor of 0 and `h`, which is 0. -/
theorem drawU64_zero_key (final : U64Final) : drawU64 final 0#64 index = 0#64 := by
  have hround4 : afterRound4 ⟨0#64, 0#64⟩ = 0#64 := by rw [afterRound4, afterRound3_zero, fullRound_zero]
  cases final with
  | doc => rw [drawU64, setUp_zero_key, hround4, finalDoc, swap32_zero, sqAdd_zero, finalHigh_zero, BitVec.xor_self]
  | published => rw [drawU64, setUp_zero_key, hround4, finalPublished, swap32_zero, finalHigh_zero, BitVec.xor_self]

end zeroKey

end Sys2Proof.Machine

/-! PROOF. What U32 and U64 append on a queue with room (41_u32.md R92, 42_u64.md R103). -/

namespace Sys2Proof.Machine

section draws
variable {key index : Word} {s : State}

theorem exec_u32_of_room (hroom : s.pend.length < s.config.depth) :
    exec (.u32 key index) s = .next (s.push ⟨.ok, zext64 (drawU32 key index)⟩) :=
  respond_of_room ((State.hasRoom_iff s).2 hroom) .ok _

theorem exec_u64_of_room (hroom : s.pend.length < s.config.depth) :
    exec (.u64 key index) s = .next (s.push ⟨.ok, drawU64 s.config.u64Final key index⟩) :=
  respond_of_room ((State.hasRoom_iff s).2 hroom) .ok _

end draws

/-- Settles O6: U32 is one `respond` with the word, and each round agrees with its form in numbers. -/
theorem u32AppendsTheFourRoundWord : Obligations.U32AppendsTheFourRoundWord := by
  intro key index s hroom
  rw [← zext64_drawU32]
  exact ⟨decodeRequest_op0 key index, exec_u32_of_room hroom⟩

/-- Settles O10: 0 is a fixed point of every round, since the key 0 makes both mixing constants 0. -/
theorem zeroKeyDrawsZero : Obligations.ZeroKeyDrawsZero := by
  intro index s hroom
  rw [exec_u32_of_room hroom, exec_u64_of_room hroom, drawU32_zero_key, drawU64_zero_key]
  exact ⟨rfl, rfl⟩

end Sys2Proof.Machine

/-! PROOF. The u64 round function in numbers, and what its word shares with U32's (42_u64.md R100 to R103). -/

namespace Sys2Proof.Machine

open Sys2Proof.Claims

section rounds
variable (key index : Word) (x : Word)

/-- `x4`: the term of round 4 is `z` (R100). -/
theorem afterRound4_setUp_toNat : (afterRound4 (setUp key index)).toNat = nX4 key.toNat index.toNat := by
  rw [afterRound4, fullRound_toNat, afterRound3_setUp_toNat, mixingTerm_even (r := 4) _ rfl, setUp_z_toNat, nX4]

/-- A half round 5: its term is `y`. -/
theorem sqAdd_setUp_five_toNat :
    (sqAdd (setUp key index) x 5).toNat = nSquareAdd x.toNat (nY key.toNat index.toNat) := by
  rw [sqAdd_toNat, mixingTerm_odd (r := 5) _ rfl, setUp_y_toNat]

theorem finalHigh_afterRound4_toNat :
    (finalHigh (setUp key index) (afterRound4 (setUp key index))).toNat = nHigh key.toNat index.toNat := by
  rw [finalHigh, zext64_toNat, hi32_toNat, sqAdd_setUp_five_toNat, afterRound4_setUp_toNat, nHigh]

theorem swap32_afterRound4_toNat :
    (swap32 (afterRound4 (setUp key index))).toNat = nSwap (nX4 key.toNat index.toNat) := by
  rw [swap32_toNat, afterRound4_setUp_toNat, nSwap]

/-- The U64 word: both builds take the xor with `h`, of a half round 5 (R101) or of the swapped `x4` itself (R102). -/
theorem drawU64_toNat (final : U64Final) : (drawU64 final key index).toNat = nU64 final key.toNat index.toNat := by
  cases final with
  | doc =>
    rw [drawU64, finalDoc, BitVec.toNat_xor, sqAdd_setUp_five_toNat, swap32_afterRound4_toNat,
      finalHigh_afterRound4_toNat, nU64, nU64Doc]
  | published =>
    rw [drawU64, finalPublished, BitVec.toNat_xor, swap32_afterRound4_toNat, finalHigh_afterRound4_toNat, nU64,
      nU64Published]

end rounds

section halves
variable (x : Word) (v : Word32)

theorem zext64_hi32 : zext64 (hi32 x) = x >>> 32 := by
  apply BitVec.eq_of_toNat_eq
  rw [zext64_toNat, hi32_toNat, BitVec.toNat_ushiftRight, Nat.shiftRight_eq_div_pow]

/-- Either way bit `i` is bit `i + 32` of `x` below 32, and bit `i - 32` from there on. -/
theorem swap32_eq_rotateLeft : swap32 x = x.rotateLeft 32 := by
  ext i hi
  rw [swap32, lo32, hi32, BitVec.getElem_append, BitVec.getElem_rotateLeft]
  by_cases hlow : i < 32
  · simp [hlow, BitVec.getLsbD_eq_getElem (x := x) (i := 32 + i) (by omega)]
  · simp [hlow, BitVec.getLsbD_eq_getElem (x := x) (i := i - 32) (by omega)]

/-- The xor with a 32-bit value leaves the top half alone. -/
theorem hi32_xor_zext64 : hi32 (x ^^^ zext64 v) = hi32 x := by
  have hv : v.toNat / 2 ^ 32 = 0 := Nat.div_eq_of_lt v.isLt
  apply BitVec.eq_of_toNat_eq
  rw [hi32_toNat, BitVec.toNat_xor, Nat.xor_div_two_pow, zext64_toNat, hv, Nat.xor_zero, hi32_toNat]

end halves

section sharedRound4
variable (key index : Word)

/-- The value U32 takes its word from, a half round 4 (R92); its swap is `x4` (R100). -/
def round4 : Word := sqAdd (setUp key index) (afterRound3 (setUp key index)) 4

theorem drawU32_eq_hi32_round4 : drawU32 key index = hi32 (round4 key index) := rfl

theorem afterRound4_setUp : afterRound4 (setUp key index) = swap32 (round4 key index) := rfl

theorem sqAdd_setUp_five (x : Word) : sqAdd (setUp key index) x 5 = x * x + index * key := by
  rw [sqAdd, mixingTerm_odd (r := 5) _ rfl]
  rfl

theorem drawU64_published_eq :
    drawU64 .published key index = round4 key index ^^^ finalHigh (setUp key index) (swap32 (round4 key index)) := by
  rw [drawU64, finalPublished, afterRound4_setUp, swap32_swap32]

/-- `h` of round 5 is below 2^32, so the top half of the PUBLISHED word is the one of round 4 (R102). -/
theorem hi32_drawU64_published : hi32 (drawU64 .published key index) = drawU32 key index := by
  rw [drawU64_published_eq, finalHigh, hi32_xor_zext64, drawU32_eq_hi32_round4]

/-- The DOC word squares round 4 itself, and its swap for `h` (R101). -/
theorem drawU64_doc_eq :
    drawU64 .doc key index =
      (round4 key index * round4 key index + index * key) ^^^
        (((round4 key index).rotateLeft 32 * (round4 key index).rotateLeft 32 + index * key) >>> 32) := by
  rw [drawU64, finalDoc, finalHigh, afterRound4_setUp, swap32_swap32, zext64_hi32, sqAdd_setUp_five,
    sqAdd_setUp_five, swap32_eq_rotateLeft]

end sharedRound4

/-- Settles O7: U64 is one `respond` with the word, and each round agrees with its form in numbers. -/
theorem u64AppendsTheFiveRoundWord : Obligations.U64AppendsTheFiveRoundWord := by
  intro key index s hroom
  rw [← drawU64_toNat, BitVec.ofNat_toNat, BitVec.setWidth_eq]
  exact ⟨decodeRequest_op1 key index, exec_u64_of_room hroom⟩

/-- Settles O8: the PUBLISHED word is round 4 xored with a 32-bit value. -/
theorem publishedTopHalfIsTheU32Word : Obligations.PublishedTopHalfIsTheU32Word := by
  intro key index s hroom hfinal
  refine ⟨drawU32 key index, drawU64 .published key index, exec_u32_of_room hroom, ?_, ?_⟩
  · rw [← hfinal]
    exact exec_u64_of_room hroom
  · rw [← hi32_toNat, hi32_drawU64_published]

/-- Settles O9: the value is `round4`. -/
theorem docWordComesFromTheU32Round4 : Obligations.DocWordComesFromTheU32Round4 := by
  intro key index s hroom hfinal
  refine ⟨round4 key index, ?_, ?_⟩
  · rw [← zext64_hi32, ← drawU32_eq_hi32_round4]
    exact exec_u32_of_room hroom
  · rw [← drawU64_doc_eq, ← hfinal]
    exact exec_u64_of_room hroom

end Sys2Proof.Machine

/-! PROOF. What each public operation's command answers, and how its result is read from the answer (43_facade.md R110 to
R116). -/

namespace Sys2Proof.Machine

/-- `rsp.data[31:0]` gives the word of U32 back (R53, R110). -/
@[simp] theorem lo32_zext64 (v : Word32) : lo32 (zext64 v) = v := by
  apply BitVec.eq_of_toNat_eq
  rw [lo32_toNat, zext64_toNat, Nat.mod_eq_of_lt v.isLt]

/-- The `Result` read from a raised error is that error (R55, R113). -/
theorem resultChecked_of_error (e : Error) (d : Word) : resultChecked ⟨errorStatus e, d⟩ = .error e := by
  rcases e with ⟨_ | _ | _⟩ | _ <;> rfl

section answers
variable {c : Config} (hc : c.wf = true) (x y : Word)
include hc

/-- On a legal build a lone request finds room (R9). -/
theorem room_for_lone_request :
    ({ State.reset with config := c } : State).pend.length < ({ State.reset with config := c } : State).config.depth :=
  Config.depth_pos_of_wf hc

theorem answer_u32 : answer c (.u32 x y) = ⟨.ok, zext64 (facadeU32 x y)⟩ :=
  answer_of_exec_eq_push (exec_u32_of_room (room_for_lone_request hc))

theorem answer_u64 : answer c (.u64 x y) = ⟨.ok, facadeU64 c x y⟩ :=
  answer_of_exec_eq_push (exec_u64_of_room (room_for_lone_request hc))

theorem answer_key : answer c (.key x y) = ⟨.ok, facadeKey c x⟩ :=
  answer_of_exec_eq_push (respond_of_room ((State.hasRoom_iff _).2 (room_for_lone_request hc)) .ok (derive c x))

theorem answer_unchecked : answer c (.unchecked x y) = ⟨.ok, facadeUnchecked x⟩ :=
  answer_of_exec_eq_push (respond_of_room ((State.hasRoom_iff _).2 (room_for_lone_request hc)) .ok x)

theorem answer_checked_of_sound (h : classify c x = none) : answer c (.checked x y) = ⟨.ok, x⟩ :=
  answer_of_exec_eq_push (exec_checked_of_admissible (room_for_lone_request hc)
    ((admissible_iff_nAdmissible c x).1 (classify_eq_none_iff.1 h)))

theorem answer_checked_of_flaw {flaw : KeyFlaw} (h : classify c x = some flaw) :
    answer c (.checked x y) = ⟨errorStatus (.invalidKey flaw), 0#64⟩ :=
  answer_of_exec_eq_push (exec_checked_of_flaw (room_for_lone_request hc) h)

/-- Both CHECKED and `Key::checked` go by CLASSIFY (R113). -/
theorem resultChecked_answer_checked : resultChecked (answer c (.checked x y)) = facadeChecked c x := by
  cases h : classify c x with
  | none => rw [answer_checked_of_sound hc x y h, facadeChecked, h, resultChecked]
  | some flaw => rw [answer_checked_of_flaw hc x y h, resultChecked_of_error, facadeChecked, h]

end answers

/-- Settles O25: each request decodes to its operation's command, whose answer carries the operation's result. -/
theorem facadeOperationsAreCommands : Obligations.FacadeOperationsAreCommands := by
  intro c x y hc
  rw [requestU32, requestU64, requestKey, requestChecked, requestUnchecked, decodeRequest_op0, decodeRequest_op1,
    decodeRequest_op2, decodeRequest_op3, decodeRequest_op4, answer_u32 hc, answer_u64 hc, answer_key hc,
    answer_unchecked hc]
  exact ⟨⟨rfl, lo32_zext64 _⟩, ⟨rfl, rfl⟩, ⟨rfl, rfl⟩, resultChecked_answer_checked hc x y, ⟨rfl, rfl⟩⟩

/-- Settles O26: each request gets the answer it would get alone, KEY's is the key, and U32 of it draws the word. -/
theorem deriveThenDrawComposes : Obligations.DeriveThenDrawComposes := by
  intro seed index b s s' hc hconfig hroom hroom'
  refine ⟨answer s.config (.key seed b), _, exec_of_room _ hroom, exec_of_room _ hroom', ?_⟩
  rw [hconfig, answer_u32 hc, answer_key hc, zext64_toNat, facadeU32, drawU32_toNat]

end Sys2Proof.Machine

/-! PROOF. Which commands raise which error (30_encoding.md R54, R55; 60_exceptions.md R120 to R124). -/

namespace Sys2Proof.Machine

/-- With room, raising an error appends its status with data 0 (R14). -/
theorem raise_of_room {s : State} (hroom : s.pend.length < s.config.depth) (e : Error) :
    raise e s = .next (s.push ⟨errorStatus e, 0#64⟩) :=
  respond_of_room ((State.hasRoom_iff s).2 hroom) _ _

/-- Settles O19: each reserved command raises IllegalOp, whatever its operands are. -/
theorem reservedOpcodesRespondIllegalOp : Obligations.ReservedOpcodesRespondIllegalOp := by
  intro a b s hroom
  have hraise := raise_of_room hroom .illegalOp
  exact ⟨decodeRequest_op5 a b, decodeRequest_op6 a b, decodeRequest_op7 a b, hraise, hraise, hraise⟩

section statuses
variable {c : Config} (hc : c.wf = true)
include hc

theorem answer_of_exec_eq_raise {i : Instr} {e : Error} (h : exec i = raise e) : answer c i = ⟨errorStatus e, 0#64⟩ :=
  answer_of_exec_eq_push (h ▸ raise_of_room (room_for_lone_request hc) e)

theorem answer_rsvd5 (a b : Word) : answer c (.rsvd5 a b) = ⟨.illegalOp, 0#64⟩ :=
  answer_of_exec_eq_raise hc (e := .illegalOp) rfl

theorem answer_rsvd6 (a b : Word) : answer c (.rsvd6 a b) = ⟨.illegalOp, 0#64⟩ :=
  answer_of_exec_eq_raise hc (e := .illegalOp) rfl

theorem answer_rsvd7 (a b : Word) : answer c (.rsvd7 a b) = ⟨.illegalOp, 0#64⟩ :=
  answer_of_exec_eq_raise hc (e := .illegalOp) rfl

/-- The flaws of R71 are all that CHECKED raises, and ILLEGAL_OP is the status of none of them. -/
theorem answer_checked_status_ne_illegalOp (v b : Word) : (answer c (.checked v b)).status ≠ .illegalOp := by
  cases h : classify c v with
  | none => simp [answer_checked_of_sound hc v b h]
  | some flaw =>
    rw [answer_checked_of_flaw hc v b h]
    cases flaw <;> simp [errorStatus]

end statuses

/-- Settles O20, command by command. -/
theorem eachErrorHasItsOwnCommands : Obligations.EachErrorHasItsOwnCommands := by
  intro c i hc
  cases i with
  | u32 k x => simp [answer_u32 hc, Instr.mnemonic]
  | u64 k x => simp [answer_u64 hc, Instr.mnemonic]
  | key m b => simp [answer_key hc, Instr.mnemonic]
  | checked v b => simp [answer_checked_status_ne_illegalOp hc v b, Instr.mnemonic]
  | unchecked v b => simp [answer_unchecked hc, Instr.mnemonic]
  | rsvd5 a b => simp [answer_rsvd5 hc, Instr.mnemonic]
  | rsvd6 a b => simp [answer_rsvd6 hc, Instr.mnemonic]
  | rsvd7 a b => simp [answer_rsvd7 hc, Instr.mnemonic]

end Sys2Proof.Machine

/-! PROOF. What one edge, and a run of edges, does to the schedule, to the record of deliveries and to the number of
responses, and the induction along a run without reset. -/

namespace Sys2Proof.Machine

section schedule
variable {n : Nat} {s t : State}

/-- The edge to come is the head of the schedule, or idle beyond its end (log entry 4). -/
theorem State.schedule_cases (s : State) :
    (s.schedule = [] ∧ s.edge = Edge.idle) ∨ s.schedule = s.edge :: s.schedule.tail := by
  cases h : s.schedule with
  | nil => exact .inl ⟨rfl, State.edge_of_nil h⟩
  | cons e es => exact .inr (by rw [State.edge_of_cons h, List.tail_cons])

/-- What holds of the idle edge and of the next `n + 1` edges of the schedule holds of the edge to come. -/
theorem State.edge_of_forall_take {p : Edge → Prop} (hidle : p Edge.idle)
    (h : ∀ e ∈ s.schedule.take (n + 1), p e) : p s.edge := by
  rcases s.schedule_cases with ⟨-, hedge⟩ | hcons
  · exact hedge ▸ hidle
  · exact h s.edge (by rw [hcons]; exact List.mem_cons_self)

theorem forall_take_of_step {p : Edge → Prop} (hstep : step s = .next t)
    (h : ∀ e ∈ s.schedule.take (n + 1), p e) : ∀ e ∈ t.schedule.take n, p e := by
  rw [step_schedule hstep]
  rcases s.schedule_cases with ⟨hnil, -⟩ | hcons
  · simp [hnil]
  · exact fun e he => h e (by rw [hcons]; exact List.mem_cons_of_mem _ he)

/-- Counting edges that the idle edge is not one of: the edge to come, then those the step leaves. -/
theorem countP_take_of_step {p : Edge → Bool} (hidle : p Edge.idle = false) (hstep : step s = .next t) :
    (s.schedule.take (n + 1)).countP p = (t.schedule.take n).countP p + (p s.edge).toNat := by
  rw [step_schedule hstep]
  rcases s.schedule_cases with ⟨hnil, hedge⟩ | hcons
  · simp [hnil, hedge, hidle]
  · rw [hcons, List.take_succ_cons, List.countP_cons, List.tail_cons, Bool.toNat, Bool.cond_eq_ite]

theorem State.chancesWithin_succ (hstep : step s = .next t) :
    s.chancesWithin (n + 1) = t.chancesWithin n + (s.edge.latencyElapsed && s.edge.rspReady).toNat :=
  countP_take_of_step (p := fun e => e.latencyElapsed && e.rspReady) rfl hstep

theorem State.offersWithin_succ (hstep : step s = .next t) :
    s.offersWithin (n + 1) = t.offersWithin n + s.edge.reqValid.toNat :=
  countP_take_of_step (p := Edge.reqValid) rfl hstep

theorem State.chancesWithin_zero : s.chancesWithin 0 = 0 := rfl

theorem State.offersWithin_zero : s.offersWithin 0 = 0 := rfl

theorem run_schedule (hrun : Sys2Proof.core.run n s = .next t) : t.schedule = s.schedule.drop n := by
  induction n generalizing s with
  | zero => rw [← run_zero_eq_next_iff.1 hrun, List.drop_zero]
  | succ n ih =>
    obtain ⟨u, hstep, hrest⟩ := run_succ_eq_next_iff.1 hrun
    rw [ih hrest, step_schedule hstep, List.drop_tail]

/-- The induction along a run without reset, from its end backwards: `P n s` is what is claimed of the `n` edges to come
from `s`. -/
theorem run_induction_of_noReset {P : Nat → State → Prop} (zero : P 0 t)
    (succ : ∀ n s u, s.edge.rst = false → step s = .next u → P n u → P (n + 1) s)
    (hno : s.noResetWithin n) (hrun : Sys2Proof.core.run n s = .next t) : P n s := by
  induction n generalizing s with
  | zero => exact run_zero_eq_next_iff.1 hrun ▸ zero
  | succ n ih =>
    obtain ⟨u, hstep, hrest⟩ := run_succ_eq_next_iff.1 hrun
    exact succ n s u (State.edge_rst_of_noResetWithin hno) hstep (ih (State.noResetWithin_of_step hno hstep) hrest)

end schedule

section counts
variable {n : Nat} {s t : State}

theorem State.rspValid_of_empty (h : s.pend = []) : s.rspValid = false := by
  simp [State.rspValid, h]

theorem step_delivered_of_not_delivers (hdel : s.delivers = false) (h : step s = .next t) :
    t.delivered = s.delivered := by
  obtain ⟨-, -, -, hnone⟩ := deliveredAfterOneEdge s t h
  rw [State.outputs_rspValid, ← State.delivers_iff, Bool.not_eq_true] at hnone
  exact hnone hdel

/-- An edge adds one response to the record when it delivers, and none otherwise. -/
theorem step_delivered_length (h : step s = .next t) :
    t.delivered.length = s.delivered.length + s.delivers.toNat := by
  cases hdel : s.delivers with
  | false => rw [step_delivered_of_not_delivers hdel h, Bool.toNat_false, Nat.add_zero]
  | true =>
    obtain ⟨-, -, hone, -⟩ := deliveredAfterOneEdge s t h
    rw [State.outputs_rspValid, ← State.delivers_iff] at hone
    obtain ⟨r, rest, -, hd⟩ := hone hdel
    rw [hd, List.length_append, List.length_singleton, Bool.toNat_true]

/-- An edge without reset loses no response, taken or queued. -/
theorem step_responses_length_le (hr : s.edge.rst = false) (h : step s = .next t) :
    s.delivered.length + s.pend.length ≤ t.delivered.length + t.pend.length := by
  have hlen := congrArg List.length (step_responseWords hr h)
  simp only [State.responseWords, List.length_append, List.length_map] at hlen
  omega

/-- A run without reset loses no response either. -/
theorem run_responses_length_le (hno : s.noResetWithin n) (hrun : Sys2Proof.core.run n s = .next t) :
    s.delivered.length + s.pend.length ≤ t.delivered.length + t.pend.length :=
  run_induction_of_noReset (P := fun _ u => u.delivered.length + u.pend.length ≤ t.delivered.length + t.pend.length)
    (Nat.le_refl _) (fun _ _ _ hr hstep ih => (step_responses_length_le hr hstep).trans ih) hno hrun

/-- With the latency elapsed and the requester ready, a queued response is delivered (R32). -/
theorem State.delivers_of_chance (hr : s.edge.rst = false) (hne : s.pend ≠ [])
    (h : (s.edge.latencyElapsed && s.edge.rspReady) = true) : s.delivers = true := by
  obtain ⟨hlat, hready⟩ := Bool.and_eq_true_iff.1 h
  exact (State.delivers_iff s).2 ⟨(State.rspValid_iff s).2 ⟨hr, hne, .inr hlat⟩, hready⟩

/-- The accept of an edge without reset adds the request offered, up to the queue's depth (R31, R33). -/
theorem State.afterAccepts_pend_length (hr : s.edge.rst = false) (hb : s.pend.length ≤ s.config.depth) :
    s.afterAccepts.pend.length = min s.config.depth (s.pend.length + s.edge.reqValid.toNat) := by
  rw [State.afterAccepts_pend, List.length_append]
  cases hacc : s.accepts with
  | true =>
    obtain ⟨-, hvalid, hroom⟩ := State.accepts_iff.1 hacc
    rw [State.acceptedAnswers_of_accepts hacc, hvalid, List.length_singleton, Bool.toNat_true]
    omega
  | false =>
    rw [State.acceptedAnswers_of_not_accepts hacc, List.length_nil]
    cases hvalid : s.edge.reqValid with
    | false => exact (Nat.min_eq_right hb).symm
    | true =>
      have hfull : ¬ s.pend.length < s.config.depth := fun hroom =>
        Bool.false_ne_true (hacc.symm.trans (State.accepts_iff.2 ⟨hr, hvalid, hroom⟩))
      rw [Bool.toNat_true]
      omega

end counts

end Sys2Proof.Machine

/-! PROOF. The obligations on reset and hazards (70_reset_and_hazards.md R140, R148 to R150), from the rules above. -/

namespace Sys2Proof.Machine

/-- One edge of progress: its chance is spent on a deliver, unless the queue is empty and claims none. -/
theorem step_progress {n : Nat} {s u : State} (hr : s.edge.rst = false) (hstep : step s = .next u) :
    s.delivered.length + min (s.chancesWithin (n + 1)) s.pend.length ≤
      u.delivered.length + min (u.chancesWithin n) u.pend.length := by
  have hdelivered := step_delivered_length hstep
  have hkept := step_responses_length_le hr hstep
  rw [State.chancesWithin_succ hstep]
  cases hchance : s.edge.latencyElapsed && s.edge.rspReady with
  | false =>
    rw [Bool.toNat_false]
    omega
  | true =>
    cases hp : s.pend with
    | nil =>
      rw [List.length_nil]
      omega
    | cons r rest =>
      rw [State.delivers_of_chance hr (hp ▸ List.cons_ne_nil r rest) hchance] at hdelivered
      rw [hp] at hkept
      rw [Bool.toNat_true] at hdelivered ⊢
      omega

/-- Settles O46, by induction along the run: what an edge's chance adds to the bound, its deliver adds to the record. -/
theorem everyChanceDeliversAQueuedResponse : Obligations.EveryChanceDeliversAQueuedResponse := by
  intro n s t hno hrun
  refine run_induction_of_noReset
    (P := fun n u => u.delivered.length + min (u.chancesWithin n) u.pend.length ≤ t.delivered.length) ?_ ?_ hno hrun
  · rw [State.chancesWithin_zero, Nat.zero_min, Nat.add_zero]
  · exact fun _ _ _ hr hstep ih => (step_progress hr hstep).trans ih

/-- Settles O47: the run loses no response, so one is still queued if none was delivered, and the idle edge beyond
the schedule has it on offer. -/
theorem everyOfferComesByTheEndOfTheSchedule : Obligations.EveryOfferComesByTheEndOfTheSchedule := by
  intro s t hne hno hrun
  have hidle : t.edge = Edge.idle := State.edge_of_nil (by rw [run_schedule hrun, List.drop_length])
  have hkept := run_responses_length_le hno hrun
  have hpos := List.length_pos_iff.2 hne
  rw [State.outputs_rspValid, State.rspValid_iff, hidle]
  rcases Nat.lt_or_ge s.delivered.length t.delivered.length with hmore | hsame
  · exact .inl hmore
  · exact .inr ⟨rfl, List.length_pos_iff.1 (by omega), .inr rfl⟩

/-- One edge of back-pressure: the queue takes what is offered, up to its depth, and nothing leaves it. -/
theorem step_of_not_ready {s u : State} (hr : s.edge.rst = false) (hready : s.edge.rspReady = false)
    (hb : s.pend.length ≤ s.config.depth) (hstep : step s = .next u) :
    u.pend.length = min s.config.depth (s.pend.length + s.edge.reqValid.toNat) ∧ u.delivered = s.delivered := by
  have hdel : s.delivers = false := by simp [State.delivers, hready]
  refine ⟨?_, step_delivered_of_not_delivers hdel hstep⟩
  cases (step_of_no_rst hr).symm.trans hstep
  rw [State.closeEdge_afterAccepts_pend_of_not_ready hready, ← State.afterAccepts_pend,
    State.afterAccepts_pend_length hr hb]

/-- Settles O48, by induction on the number of edges: none delivers, and each accepts what the depth allows. -/
theorem backPressureStopsAtDepth : Obligations.BackPressureStopsAtDepth := by
  intro n s t hb hno hready hrun
  induction n generalizing s with
  | zero =>
    cases run_zero_eq_next_iff.1 hrun
    rw [State.offersWithin_zero, Nat.add_zero, Nat.min_eq_right hb]
    exact ⟨rfl, rfl⟩
  | succ n ih =>
    obtain ⟨u, hstep, hrest⟩ := run_succ_eq_next_iff.1 hrun
    have hnow : s.edge.rspReady = false := State.edge_of_forall_take (p := fun e => e.rspReady = false) rfl hready
    obtain ⟨hpend, hsame⟩ := step_of_not_ready (State.edge_rst_of_noResetWithin hno) hnow hb hstep
    have hconfig : u.config = s.config := step_config hstep
    have hub : u.pend.length ≤ u.config.depth := by rw [hpend, hconfig]; exact Nat.min_le_left _ _
    obtain ⟨hlen, hdelivered⟩ :=
      ih u hub (State.noResetWithin_of_step hno hstep) (forall_take_of_step hstep hready) hrest
    refine ⟨?_, hdelivered.trans hsame⟩
    rw [hlen, hconfig, hpend, State.offersWithin_succ hstep]
    omega

/-- Settles O37: both the offer and the deliver are judged on the queue before the edge. -/
theorem nothingIsOfferedAtItsAcceptingEdge : Obligations.NothingIsOfferedAtItsAcceptingEdge := by
  intro s t hp hstep
  have hv : s.outputs.rspValid = false := (State.outputs_rspValid s).trans (State.rspValid_of_empty hp)
  exact ⟨hv, step_delivered_of_not_delivers (by simp [State.delivers, hv]) hstep⟩

/-- Settles O38: `rst` is a conjunct of both handshakes, and each reset edge is one `resetEdge`. -/
theorem resetEdgeEmptiesTheQueue : Obligations.ResetEdgeEmptiesTheQueue := by
  intro s hr
  refine ⟨?_, ?_, s.resetEdge, step_of_rst hr, rfl, rfl, rfl, fun hr' =>
    ⟨s.resetEdge.resetEdge, step_of_rst hr', rfl, rfl⟩⟩
  · rw [State.outputs_reqReady, State.reqReady, hr, Bool.not_true, Bool.false_and]
  · rw [State.outputs_rspValid, State.rspValid, hr, Bool.not_true, Bool.false_and, Bool.false_and]

end Sys2Proof.Machine
